-- ==== Sys2Proof/Word.lean ====
section
/-! DEFINITION. The words of the ECLIC arbiter: bytes (`u8` of 00_scope section 6.1) and the data a bus read returns. -/

namespace Sys2Proof

/-- `u8`: an unsigned 8-bit value; bit 0 is the least significant bit (00_scope section 6.1). -/
abbrev Byte := BitVec 8

/-- The data lanes of the widest access a bus can present, 8 bytes (20_memory R61, R65). -/
abbrev BusData := BitVec 64

end Sys2Proof
end

