-- ==== Sys2Proof/Config.lean ====
section
/-! DEFINITION. What an implementation fixes (00_scope R5) and the values the spec leaves open. The opaque constants have no body:
no proof can see their values, so whatever is proved holds for all of them. -/

namespace Sys2Proof

/-- The four trigger modes; `reserved` is a mode of its own and is never another mode's alias (40_attribute_decoder R124,
42_trigger_and_line_events R177). -/
inductive TriggerMode where
  | level
  | risingEdge
  | fallingEdge
  | reserved
  deriving DecidableEq, Repr, Inhabited

namespace Config

/-- `TRIG_DECODE` of the hardware: which trigger mode each 2-bit code selects. OPEN in the spec (R124, D2: "do not guess").
The model holds the function an instance uses in State (`State.trig`); only `State.reset` takes it from here (log 5). -/
opaque trigDecode : BitVec 2 → TriggerMode

/-- `INFO_VALUE` as a function of `LEVEL_PRIORITY_BITS` and `num_sources`. OPEN in the spec (10_state R22, D4; log 6). -/
opaque infoValue (levelBits numSources : Nat) : BitVec 32

/-- `draw({0, 1})`: the k-th free bit the `Reserved` trigger mode takes (00_scope section 6.3, R177, R181, D3; log 7). -/
opaque draw : Nat → Bool

/-- Which of the `N` sources `SRC_SOFT` is, as a free number to be taken modulo `N`. OPEN in the spec (60_exceptions R233, D22; log 18). -/
opaque srcSoftPick : Nat → Nat

/-- Which of the other sources `SRC_TIMER` is, as a free number. OPEN in the spec (60_exceptions R233, D22; log 18). -/
opaque srcTimerPick : Nat → Nat

/-- `SRC_SOFT` of an instance with `N` sources: the source index reserved for the software-triggered timer interrupt, any id below `N`
(00_scope R5, D22; log 18). -/
def srcSoft (N : Nat) : Nat := srcSoftPick N % N

/-- `SRC_TIMER` of an instance with `N` sources: the source index reserved for the hardware timer-compare interrupt, any id below `N` but
`SRC_SOFT` (00_scope R5, D22); with one source there is no other id (log 18). -/
def srcTimer (N : Nat) : Nat := (srcSoft N + 1 + srcTimerPick N % (N - 1)) % N

/-- `BASE` of the instance in `State.reset`. DESIGN CHOICE (log 4): any value would do, no rule reads it (20_memory R60). -/
def base : Nat := 0

/-- `APERTURE` of the instance in `State.reset`: the value of the example of 70_reset_and_hazards R260. DESIGN CHOICE (log 4). -/
def aperture : Nat := 0x2000

/-- `num_sources` of the instance in `State.reset`: the value of the example of R260 and of scenario A. DESIGN CHOICE (log 4). -/
def numSources : Nat := 32

/-- `LEVEL_PRIORITY_BITS` of the instance in `State.reset`: the spec's reference value (R5). DESIGN CHOICE (log 4). -/
def levelBits : Nat := 6

/-- The CPU Dispatch Interface handed to the instance in `State.reset`. DESIGN CHOICE (log 4): no rule reads it. -/
def cpu : Nat := 0

end Config
end Sys2Proof
end

