-- ==== Sys2Proof/Syntax.lean ====
section
/-! DEFINITION. The operations of the block (30_encoding R104): one constructor of `Instr` per row of the opcode table, with the
operands of its rule, and the data these operands are made of. -/

namespace Sys2Proof

/-- The width `n` of an MMIO access: the four a bus can present (20_memory section 1, D7). -/
inductive Width where
  | one
  | two
  | four
  | eight
  deriving DecidableEq, Repr

/-- `n` in bytes. -/
def Width.bytes : Width → Nat
  | .one => 1
  | .two => 2
  | .four => 4
  | .eight => 8

/-- A register of the address map (20_memory R61). -/
inductive Reg where
  /-- global config, `0x0000` -/
  | gcfg
  /-- the info word, `0x0004` -/
  | info
  /-- threshold, `0x000B` -/
  | mth
  /-- pending byte of a source, `0x1000 + 4*id + 0` -/
  | ip (id : Nat)
  /-- enable byte of a source, `0x1000 + 4*id + 1` -/
  | ie (id : Nat)
  /-- attr byte of a source, `0x1000 + 4*id + 2` -/
  | attr (id : Nat)
  /-- ctl byte of a source, `0x1000 + 4*id + 3` -/
  | ctl (id : Nat)
  deriving DecidableEq, Repr

/-- The four software-visible registers of one source: an entry of `SourceRaw` (10_state R24) and of a snapshot record's `src`
(30_encoding R108). -/
structure SourceRaw where
  /-- `pending_bit` (10_state R25) -/
  ip : Bool
  /-- `enable_bit` (R26) -/
  ie : Bool
  /-- `attr_byte` (R27) -/
  attr : Byte
  /-- `ctl_byte` (R28) -/
  ctl : Byte
  deriving DecidableEq, Repr

/-- The snapshot record (30_encoding R108). -/
structure Record where
  gc : Byte
  mth : Byte
  src : List SourceRaw
  deriving DecidableEq, Repr

/-- The operands of construction and reset (30_encoding R95, 70_reset_and_hazards R260). -/
structure ResetParams where
  /-- `BASE` -/
  base : Nat
  /-- `APERTURE` -/
  aperture : Nat
  /-- `N`, `num_sources` -/
  numSources : Nat
  /-- `L`, `LEVEL_PRIORITY_BITS` -/
  levelBits : Nat
  /-- the handle to the one CPU Dispatch Interface (60_exceptions R236) -/
  cpu : Nat
  deriving DecidableEq, Repr

/-- The 22 operations (30_encoding R104), in the table's order. -/
inductive Instr where
  /-- `RESET` (R260) -/
  | reset (p : ResetParams)
  /-- `WR_GCFG` (R140) -/
  | wrGcfg (b : Byte)
  /-- `RD_GCFG` (R141) -/
  | rdGcfg
  /-- `RD_INFO` (R142) -/
  | rdInfo
  /-- `WR_INFO` (R143) -/
  | wrInfo (data : BitVec 32)
  /-- `WR_MTH` (R144) -/
  | wrMth (b : Byte)
  /-- `RD_MTH` (R145) -/
  | rdMth
  /-- `WR_IP` (R146) -/
  | wrIp (id : Nat) (b : Byte)
  /-- `RD_IP` (R147) -/
  | rdIp (id : Nat)
  /-- `WR_IE` (R148) -/
  | wrIe (id : Nat) (b : Byte)
  /-- `RD_IE` (R149) -/
  | rdIe (id : Nat)
  /-- `WR_ATTR` (R150) -/
  | wrAttr (id : Nat) (b : Byte)
  /-- `RD_ATTR` (R151) -/
  | rdAttr (id : Nat)
  /-- `WR_CTL` (R152) -/
  | wrCtl (id : Nat) (b : Byte)
  /-- `RD_CTL` (R153) -/
  | rdCtl (id : Nat)
  /-- `WR_DROP` (R154) -/
  | wrDrop (off : Nat) (n : Width) (data : BusData)
  /-- `RD_ZERO` (R155) -/
  | rdZero (off : Nat) (n : Width)
  /-- `LINE_ASSERT` (R171) -/
  | lineAssert (id : Nat)
  /-- `LINE_DEASSERT` (R172) -/
  | lineDeassert (id : Nat)
  /-- `ACK` (R180) -/
  | ack (id : Nat)
  /-- `SNAPSHOT` (R210) -/
  | snapshot
  /-- `RESTORE` (R211) -/
  | restore (rec : Record)
  deriving DecidableEq, Repr

/-- Why a byte list stands for no event of 30_encoding R90 (log 1). -/
inductive DecodeError where
  /-- the bytes end before the header does -/
  | shortHeader
  /-- the port byte names no port -/
  | unknownPort
  /-- the width byte names none of the widths 1, 2, 4, 8 (20_memory section 1) -/
  | badWidth
  /-- the bytes after the header are not as many as the event's fields take -/
  | badLength
  /-- a field that is one bit (`v`, a record's `ip` or `ie`) is neither 0 nor 1 -/
  | badBit
  /-- the selector field of an event that has none is not 0 -/
  | badSelector
  deriving DecidableEq, Repr

end Sys2Proof
end

