-- ==== Sys2Proof/WellFormed.lean ====
section
/-! DEFINITION. Which operations are inputs of an instance with `N` sources: ids in `[0, N)` (30_encoding R93, R94), the
fall-through rows only where no other row matches (R104), data as wide as the access (R91). Offsets, ids, `N` and the other construction
parameters are numbers with no upper bound (92_eei_decisions D13, D15), and so are their places in an event frame (log 1). -/

namespace Sys2Proof

/-- 20_memory R62: an access is supported exactly when its offset and width match a row of R61. -/
def supportedAccess (N off : Nat) (n : Width) : Bool :=
  (off == 0x0000 && n == .one)
    || (off == 0x0004 && n == .four)
    || (off == 0x000B && n == .one)
    || (n == .one && decide (0x1000 ≤ off) && decide (off < 0x1000 + 4 * N))

/-- A source id of the instance (30_encoding R93, R94, R102). -/
def sourceIdOk (N id : Nat) : Bool :=
  decide (id < N)

/-- The data of an `n`-byte write has no bit above `n` bytes (30_encoding R91). -/
def dataFits (n : Width) (data : BusData) : Bool :=
  decide (data.toNat < 256 ^ n.bytes)

/-- The operation is an event an instance with `N` sources can be handed. Any operands make a `RESET` and any record a `RESTORE`: that the
block accepts them is another matter (70_reset_and_hazards R260, 44_snapshot_restore R212). -/
def Instr.wellFormed (N : Nat) : Instr → Bool
  | .reset _ => true
  | .wrGcfg _ => true
  | .rdGcfg => true
  | .rdInfo => true
  | .wrInfo _ => true
  | .wrMth _ => true
  | .rdMth => true
  | .wrIp id _ => sourceIdOk N id
  | .rdIp id => sourceIdOk N id
  | .wrIe id _ => sourceIdOk N id
  | .rdIe id => sourceIdOk N id
  | .wrAttr id _ => sourceIdOk N id
  | .rdAttr id => sourceIdOk N id
  | .wrCtl id _ => sourceIdOk N id
  | .rdCtl id => sourceIdOk N id
  | .wrDrop off n data => !supportedAccess N off n && dataFits n data
  | .rdZero off n => !supportedAccess N off n
  | .lineAssert id => sourceIdOk N id
  | .lineDeassert id => sourceIdOk N id
  | .ack id => sourceIdOk N id
  | .snapshot => true
  | .restore _ => true

end Sys2Proof
end

