-- ==== Sys2Proof/Decode.lean ====
section
/-! DEFINITION. The offset decoder of the MMIO adapter (20_memory R61 to R63, 30_encoding R102, R104), the decoder of event frames,
and after it the encoder.

EVENT FRAMES (DESIGN CHOICE, log 1). The spec's events are abstract tuples (30_encoding R90 to R95); it gives them no byte layout.
The model writes one event as one list of bytes. Its header is a selector and a port; the selector is the MMIO byte offset `off` (the
number `opcode_table.json` matches), a line's or an acknowledge's source id, `N` of a `RESET`, the number of entries of a `RESTORE`, 0 of
a `SNAPSHOT`. Bytes 0 to 3 are bits 31 to 0 of the selector, least significant byte first, and byte 4 is the port. From byte 5 on stand
the bits of the selector above bit 31 as a number of any size, which is the one byte 0 for a selector below 2^32. Then comes the body:

    port 0  MMIO read    width (0, 1, 2, 3 for 1, 2, 4, 8 bytes)
    port 1  MMIO write   width, then as many data bytes, least significant first
    port 2  line         v (0 or 1)
    port 3  acknowledge  nothing
    port 4  RESET        BASE, APERTURE, L, CPU handle, each a number of any size
    port 5  SNAPSHOT     nothing
    port 6  RESTORE      gc, mth, then ip, ie, attr, ctl of every source, ids ascending

A number of any size takes as many bytes as it needs: seven bits a byte, the least significant first, bit 7 set in every byte but the
last. So no offset, id, `N` or other parameter has an upper bound (92_eei_decisions D13, D15).
-/

namespace Sys2Proof

/-- `k` bytes of a number, least significant first. -/
def bytesLE : Nat → Nat → List Byte
  | 0, _ => []
  | k + 1, x => BitVec.ofNat 8 x :: bytesLE k (x / 256)

/-- The number a list of bytes stands for, least significant byte first. -/
def ofBytesLE : List Byte → Nat
  | [] => 0
  | b :: bs => b.toNat + 256 * ofBytesLE bs

/-- The bytes of a number of any size, given room for `k` bytes before the last. -/
def numberBytes : Nat → Nat → List Byte
  | 0, x => [BitVec.ofNat 8 (x % 128)]
  | k + 1, x =>
    if x < 128 then [BitVec.ofNat 8 x] else BitVec.ofNat 8 (x % 128 + 128) :: numberBytes k (x / 128)

/-- The bytes of a number of any size (log 1). -/
def encodeNumber (x : Nat) : List Byte := numberBytes x.log2 x

/-- The number of any size that a list of bytes starts with, and the bytes after it (log 1). -/
def takeNumber : List Byte → Option (Nat × List Byte)
  | [] => none
  | b :: bs =>
    if b.toNat < 128 then some (b.toNat, bs)
    else
      match takeNumber bs with
      | some (high, rest) => some (b.toNat - 128 + 128 * high, rest)
      | none => none

/-- The byte offset of a register (20_memory R61). -/
def Reg.offset : Reg → Nat
  | .gcfg => 0x0000
  | .info => 0x0004
  | .mth => 0x000B
  | .ip id => 0x1000 + 4 * id + 0
  | .ie id => 0x1000 + 4 * id + 1
  | .attr id => 0x1000 + 4 * id + 2
  | .ctl id => 0x1000 + 4 * id + 3

/-- The one width a register can be accessed with (20_memory R61, R62). -/
def Reg.width : Reg → Width
  | .info => .four
  | _ => .one

/-- The register of a source that an offset at or above `0x1000` selects: `id = (off - 0x1000) >> 2`, `f = (off - 0x1000) & 3`
(30_encoding R102). -/
def sourceRegAt (off : Nat) : Reg :=
  match (off - 0x1000) % 4 with
  | 0 => .ip ((off - 0x1000) / 4)
  | 1 => .ie ((off - 0x1000) / 4)
  | 2 => .attr ((off - 0x1000) / 4)
  | _ => .ctl ((off - 0x1000) / 4)

/-- The register a supported access reaches, `none` for an unsupported one (20_memory R62, 30_encoding R102, R104). -/
def regAt (N off : Nat) (n : Width) : Option Reg :=
  match n with
  | .one =>
    if off = 0x0000 then some .gcfg
    else if off = 0x000B then some .mth
    else if 0x1000 ≤ off ∧ off < 0x1000 + 4 * N then some (sourceRegAt off)
    else none
  | .four => if off = 0x0004 then some .info else none
  | .two => none
  | .eight => none

/-- The operation a read of `n` bytes at `off` selects (30_encoding R104). -/
def readAt (N off : Nat) (n : Width) : Instr :=
  match regAt N off n with
  | some .gcfg => .rdGcfg
  | some .info => .rdInfo
  | some .mth => .rdMth
  | some (.ip id) => .rdIp id
  | some (.ie id) => .rdIe id
  | some (.attr id) => .rdAttr id
  | some (.ctl id) => .rdCtl id
  | none => .rdZero off n

/-- The operation a write of `data`, `n` bytes wide, at `off` selects (30_encoding R104); a 1-byte write examines `data[7:0]`
(20_memory R65). -/
def writeAt (N off : Nat) (n : Width) (data : BusData) : Instr :=
  match regAt N off n with
  | some .gcfg => .wrGcfg (data.setWidth 8)
  | some .info => .wrInfo (data.setWidth 32)
  | some .mth => .wrMth (data.setWidth 8)
  | some (.ip id) => .wrIp id (data.setWidth 8)
  | some (.ie id) => .wrIe id (data.setWidth 8)
  | some (.attr id) => .wrAttr id (data.setWidth 8)
  | some (.ctl id) => .wrCtl id (data.setWidth 8)
  | none => .wrDrop off n data

/-- The width a frame's width byte stands for (log 1). -/
def widthOfCode (b : Byte) : Option Width :=
  match b.toNat with
  | 0 => some .one
  | 1 => some .two
  | 2 => some .four
  | 3 => some .eight
  | _ => none

/-- A width's code in a frame (log 1). -/
def Width.code : Width → Byte
  | .one => 0
  | .two => 1
  | .four => 2
  | .eight => 3

/-- A one-bit field held in a byte of a frame (log 1). -/
def bitOfByte (b : Byte) : Option Bool :=
  match b.toNat with
  | 0 => some false
  | 1 => some true
  | _ => none

/-- The byte of a one-bit field. -/
def byteOfBit (b : Bool) : Byte :=
  if b then 1 else 0

/-- The per-source entries of a `RESTORE` frame, four bytes each. -/
def decodeSources : List Byte → Except DecodeError (List SourceRaw)
  | [] => .ok []
  | p :: e :: a :: c :: rest =>
    match bitOfByte p, bitOfByte e, decodeSources rest with
    | some ip, some ie, .ok src => .ok (⟨ip, ie, a, c⟩ :: src)
    | some _, some _, .error err => .error err
    | _, _, _ => .error .badBit
  | _ => .error .badLength

/-- An MMIO read frame's body. -/
def decodeReadBody (N sel : Nat) : List Byte → Except DecodeError Instr
  | [w] =>
    match widthOfCode w with
    | some n => .ok (readAt N sel n)
    | none => .error .badWidth
  | _ => .error .badLength

/-- An MMIO write frame's body. -/
def decodeWriteBody (N sel : Nat) : List Byte → Except DecodeError Instr
  | w :: data =>
    match widthOfCode w with
    | some n =>
      if data.length = n.bytes then .ok (writeAt N sel n (BitVec.ofNat 64 (ofBytesLE data)))
      else .error .badLength
    | none => .error .badWidth
  | [] => .error .badLength

/-- A line event's body: `v = 1` is assert, `v = 0` deassert (30_encoding R94). -/
def decodeLineBody (sel : Nat) : List Byte → Except DecodeError Instr
  | [v] =>
    match bitOfByte v with
    | some true => .ok (.lineAssert sel)
    | some false => .ok (.lineDeassert sel)
    | none => .error .badBit
  | _ => .error .badLength

/-- The operands in a `RESET` frame's body: four numbers of any size and nothing after them. -/
def takeResetParams (sel : Nat) (body : List Byte) : Option ResetParams := do
  let (base, body) ← takeNumber body
  let (aperture, body) ← takeNumber body
  let (levelBits, body) ← takeNumber body
  let (cpu, body) ← takeNumber body
  if body = [] then some ⟨base, aperture, sel, levelBits, cpu⟩ else none

/-- A `RESET` frame's body. -/
def decodeResetBody (sel : Nat) (body : List Byte) : Except DecodeError Instr :=
  match takeResetParams sel body with
  | some p => .ok (.reset p)
  | none => .error .badLength

/-- A `RESTORE` frame's body. -/
def decodeRestoreBody (sel : Nat) : List Byte → Except DecodeError Instr
  | g :: m :: entries =>
    match decodeSources entries with
    | .ok src => if src.length = sel then .ok (.restore ⟨g, m, src⟩) else .error .badLength
    | .error err => .error err
  | _ => .error .badLength

/-- The body of a frame, by its port. -/
def decodeBody (N sel : Nat) (port : Byte) (body : List Byte) : Except DecodeError Instr :=
  match port.toNat with
  | 0 => decodeReadBody N sel body
  | 1 => decodeWriteBody N sel body
  | 2 => decodeLineBody sel body
  | 3 => if body = [] then .ok (.ack sel) else .error .badLength
  | 4 => decodeResetBody sel body
  | 5 => if sel = 0 then (if body = [] then .ok .snapshot else .error .badLength) else .error .badSelector
  | 6 => decodeRestoreBody sel body
  | _ => .error .unknownPort

/-- The operation that a frame handed to an instance with `N` sources selects; total on any bytes. -/
def decode (N : Nat) : List Byte → Except DecodeError Instr
  | s0 :: s1 :: s2 :: s3 :: port :: rest =>
    match takeNumber rest with
    | some (high, body) => decodeBody N (ofBytesLE [s0, s1, s2, s3] + 2 ^ 32 * high) port body
    | none => .error .shortHeader
  | _ => .error .shortHeader

/-! ### The encoder -/

/-- A frame's header. -/
def header (sel : Nat) (port : Byte) : List Byte :=
  bytesLE 4 sel ++ (port :: encodeNumber (sel / 2 ^ 32))

/-- The frame of an `n`-byte MMIO read at `off`. -/
def readFrame (off : Nat) (n : Width) : List Byte :=
  header off 0 ++ [n.code]

/-- The frame of an MMIO write of `data`, `n` bytes wide, at `off`. -/
def writeFrame (off : Nat) (n : Width) (data : Nat) : List Byte :=
  header off 1 ++ (n.code :: bytesLE n.bytes data)

/-- A read of a register (its offset and its one width, 20_memory R61). -/
def readRegFrame (r : Reg) : List Byte :=
  readFrame r.offset r.width

/-- A write of a register. -/
def writeRegFrame (r : Reg) (data : Nat) : List Byte :=
  writeFrame r.offset r.width data

/-- The four bytes of one entry of a `RESTORE` frame. -/
def encodeSource (r : SourceRaw) : List Byte :=
  [byteOfBit r.ip, byteOfBit r.ie, r.attr, r.ctl]

/-- The frame of an operation. -/
def encode : Instr → List Byte
  | .reset p => header p.numSources 4 ++ (encodeNumber p.base ++ encodeNumber p.aperture ++ encodeNumber p.levelBits ++ encodeNumber p.cpu)
  | .wrGcfg b => writeRegFrame .gcfg b.toNat
  | .rdGcfg => readRegFrame .gcfg
  | .rdInfo => readRegFrame .info
  | .wrInfo d => writeRegFrame .info d.toNat
  | .wrMth b => writeRegFrame .mth b.toNat
  | .rdMth => readRegFrame .mth
  | .wrIp id b => writeRegFrame (.ip id) b.toNat
  | .rdIp id => readRegFrame (.ip id)
  | .wrIe id b => writeRegFrame (.ie id) b.toNat
  | .rdIe id => readRegFrame (.ie id)
  | .wrAttr id b => writeRegFrame (.attr id) b.toNat
  | .rdAttr id => readRegFrame (.attr id)
  | .wrCtl id b => writeRegFrame (.ctl id) b.toNat
  | .rdCtl id => readRegFrame (.ctl id)
  | .wrDrop off n data => writeFrame off n data.toNat
  | .rdZero off n => readFrame off n
  | .lineAssert id => header id 2 ++ [1]
  | .lineDeassert id => header id 2 ++ [0]
  | .ack id => header id 3
  | .snapshot => header 0 5
  | .restore rec => header rec.src.length 6 ++ (rec.gc :: rec.mth :: rec.src.flatMap encodeSource)

/-! ### The opcode table's words

A row of `opcode_table.json` numbers the bits of the MMIO offset only: bits 31 to 0 of a table word are bytes 0 to 3 of a frame,
and the port, the selector's higher bits, the width and the data lie above them (log 13). -/

/-- How many bytes of 0 complete a body that begins with these bytes. In a `RESET` each byte below 128 ends one of its four numbers. -/
def missingBytes (sel : Nat) (port : Byte) (body : List Byte) : Nat :=
  match port.toNat with
  | 0 => 1 - body.length
  | 1 => 1 + ((body.head?.bind widthOfCode).getD .one).bytes - body.length
  | 2 => 1 - body.length
  | 4 => 4 - (body.filter fun b => decide (b.toNat < 128)).length
  | 6 => 2 + 4 * sel - body.length
  | _ => 0

/-- The bytes, with a byte of 0 after them if the number of any size they start with does not end. -/
def endNumber (bytes : List Byte) : List Byte :=
  if (takeNumber bytes).isSome then bytes else bytes ++ [0]

/-- The bytes of a frame, extended with bytes of 0 to the length its header asks for. -/
def padFrame : List Byte → List Byte
  | s0 :: s1 :: s2 :: s3 :: port :: rest =>
    match takeNumber (endNumber rest) with
    | some (high, body) =>
      s0 :: s1 :: s2 :: s3 :: port ::
        (endNumber rest ++ List.replicate (missingBytes (ofBytesLE [s0, s1, s2, s3] + 2 ^ 32 * high) port body) 0)
    | none => s0 :: s1 :: s2 :: s3 :: port :: endNumber rest
  | bytes => bytes

/-- The frame whose bits, numbered from the least significant bit of its first byte, are the low `nbits` bits of `w`, every bit
above them 0. -/
def frameOfWord (nbits w : Nat) : List Byte :=
  padFrame (bytesLE (max 5 ((nbits + 7) / 8)) (w % 2 ^ nbits))

/-- The operation the decoder reads from an event whose bits are `w`, for an instance with the number of sources of `State.reset`. -/
def decodeTableWord (nbits w : Nat) : Option Instr :=
  (decode Config.numSources (frameOfWord nbits w)).toOption

end Sys2Proof
end

