-- ==== Sys2Proof/Machine/State.lean ====
section
/-! DEFINITION. Everything the spec gives the block (10_state section 1, 00_scope R5), the model's own fields (log 2, 7, 8), the
reasons a step can stop, and the state right after reset. -/

namespace Sys2Proof.Machine

/-- One source: its four registers and its hidden line bit (10_state R24, R29). -/
structure Source where
  /-- `ip`, `ie`, `attr`, `ctl` (10_state R25 to R28) -/
  raw : SourceRaw
  /-- `line[i]`: the raw line value as of the last line event on it (10_state R29) -/
  line : Bool
  deriving DecidableEq, Repr

/-- A source after construction: every array is zero-initialized (10_state R37). -/
def Source.zero : Source := ⟨⟨false, false, 0, 0⟩, false⟩

/-- `TRIG_DECODE` as data: the mode of each of the four 2-bit codes (40_attribute_decoder R124). -/
structure TrigTable where
  code0 : TriggerMode
  code1 : TriggerMode
  code2 : TriggerMode
  code3 : TriggerMode
  deriving DecidableEq, Repr

/-- The triple `(source_id, level, shv)` of the dispatch output (30_encoding R92, 43_pending_set_and_dispatch R197). -/
structure Delivery where
  id : Nat
  level : Byte
  shv : Bool
  deriving DecidableEq, Repr

/-- The reasons of `reject ConfigError` (70_reset_and_hazards R260, 44_snapshot_restore R212). The source knows one kind of error and
no codes (60_exceptions R231); the reasons are the model's names for its four conditions. -/
inductive ConfigError where
  /-- `N == 0` at construction -/
  | noSources
  /-- `APERTURE < 0x1000 + 4*N` at construction -/
  | apertureTooSmall
  /-- `L > 8` at construction -/
  | tooManyLevelBits
  /-- a `RESTORE` record whose number of entries is not `N` -/
  | recordSize
  deriving DecidableEq, Repr

/-- What a call into the block returns (30_encoding R90, R91, R95; log 8). -/
inductive Reply where
  /-- the event returns nothing -/
  | nothing
  /-- an MMIO read's data (20_memory R65) -/
  | data (v : BusData)
  /-- a snapshot's record (44_snapshot_restore R210) -/
  | record (rec : Record)
  /-- `reject ConfigError` of a call that leaves the instance unchanged (44_snapshot_restore R212; log 10) -/
  | rejected (e : ConfigError)
  deriving DecidableEq, Repr

/-- The state of the controller. Plain data. The number of sources `N` is the length of `src` (`State.numSources`): the array is
created once with `N` entries and never resized (10_state R24). -/
structure State where
  /-- `BASE` (00_scope R5) -/
  base : Nat
  /-- `APERTURE` (00_scope R5) -/
  aperture : Nat
  /-- `L`, `LEVEL_PRIORITY_BITS` (00_scope R5) -/
  levelBits : Nat
  /-- the one CPU Dispatch Interface (60_exceptions R236) -/
  cpu : Nat
  /-- `TRIG_DECODE` (40_attribute_decoder R124) -/
  trig : TrigTable
  /-- `SRC_SOFT`, the source reserved for the software-triggered timer interrupt (00_scope R5, 60_exceptions R233; log 18) -/
  srcSoft : Nat
  /-- `SRC_TIMER`, the source reserved for the hardware timer-compare interrupt (00_scope R5, 60_exceptions R233; log 18) -/
  srcTimer : Nat
  /-- the global config byte (10_state R21) -/
  gc : Byte
  /-- the threshold byte (10_state R23) -/
  mth : Byte
  /-- the per-source registers and line bits, index = source id (10_state R24, R29) -/
  src : List Source
  /-- the value last delivered to the CPU Dispatch Interface (10_state R33) -/
  out : Option Delivery
  /-- the model's own: what the last served event returned (log 8) -/
  reply : Reply
  /-- the model's own: the events the embedding has serialized and the block has not served yet, as frames (20_memory R68; log 2) -/
  inputs : List (List Byte)
  /-- the model's own: how many `draw` values have been taken (log 7) -/
  draws : Nat
  deriving DecidableEq, Repr

/-- Why a step stops with a fault. -/
inductive Fault where
  /-- `reject ConfigError` of a construction (70_reset_and_hazards R260; 60_exceptions R231): raised by `RESET` alone. No controller exists
  afterwards, so there is no next state. Safe: the spec names this outcome (93_implementation_defined U21, U22; log 9). -/
  | configError (e : ConfigError)
  deriving DecidableEq, Repr

/-- Why a step has no meaning. -/
inductive Refusal where
  /-- Raised by an arm of `exec` whose operation has no meaning yet: by none. Safe. -/
  | notModelled (mnemonic : String)
  /-- Raised by `step` when the next frame of `inputs` stands for no event of 30_encoding R90: the block cannot be handed it. Safe (log 1). -/
  | malformedFrame (e : DecodeError)
  deriving DecidableEq, Repr

/-- The reset state of 10_state R37 and 70_reset_and_hazards R262 for the construction `RESET N=32 L=6` with `APERTURE = 0x2000`
(log 4): every register 0, every line bit 0, nothing delivered, no event waiting. -/
def State.reset : State where
  base := Config.base
  aperture := Config.aperture
  levelBits := Config.levelBits
  cpu := Config.cpu
  trig := ⟨Config.trigDecode 0, Config.trigDecode 1, Config.trigDecode 2, Config.trigDecode 3⟩
  srcSoft := Config.srcSoft Config.numSources
  srcTimer := Config.srcTimer Config.numSources
  gc := 0x00
  mth := 0x00
  src := List.replicate Config.numSources Source.zero
  out := none
  reply := .nothing
  inputs := []
  draws := 0

end Sys2Proof.Machine
end

