-- ==== Sys2Proof/Machine/Operands.lean ====
section
/-! DEFINITION. Reading the machine: the per-source fields by source id, every register through the register interface, and the
registers' stores. -/

namespace Sys2Proof.Machine

/-- `N`, `num_sources` (10_state R24). -/
def State.numSources (s : State) : Nat := s.src.length

/-- Source `i`. Ids outside `[0, N)` name no source; the zero source stands there and no operation writes it. -/
def State.source (s : State) (i : Nat) : Source := s.src.getD i Source.zero

/-- `ip[i]` (10_state R25). -/
def State.ip (s : State) (i : Nat) : Bool := (s.source i).raw.ip

/-- `ie[i]` (10_state R26). -/
def State.ie (s : State) (i : Nat) : Bool := (s.source i).raw.ie

/-- `attr[i]` (10_state R27). -/
def State.attr (s : State) (i : Nat) : Byte := (s.source i).raw.attr

/-- `ctl[i]` (10_state R28). -/
def State.ctl (s : State) (i : Nat) : Byte := (s.source i).raw.ctl

/-- `line[i]` (10_state R29). -/
def State.line (s : State) (i : Nat) : Bool := (s.source i).line

/-- `INFO_VALUE` of the instance (10_state R22; log 6). -/
def State.info (s : State) : BitVec 32 := Config.infoValue s.levelBits s.numSources

/-- `IDW = max(1, ceil(log2 N))`, the width of the `source_id` output (00_scope R5). -/
def idWidth (N : Nat) : Nat := if N ≤ 2 then 1 else Nat.log2 (N - 1) + 1

/-- The two global byte registers are there in every instance, a per-source register when the source is (20_memory R61). -/
def State.hasReg (s : State) : Reg → Bool
  | .gcfg => true
  | .info => true
  | .mth => true
  | .ip id => decide (id < s.numSources)
  | .ie id => decide (id < s.numSources)
  | .attr id => decide (id < s.numSources)
  | .ctl id => decide (id < s.numSources)

/-- The value a supported read of a register returns: the register in the low bits, every higher bit 0 (20_memory R65); the pending
and enable bits in bit 0 (10_state R25, R26; D5). A register of a source the instance does not have reads 0 (20_memory R63). -/
def State.readReg (s : State) : Reg → BusData
  | .gcfg => s.gc.setWidth 64
  | .info => s.info.setWidth 64
  | .mth => s.mth.setWidth 64
  | .ip id => (byteOfBit (s.ip id)).setWidth 64
  | .ie id => (byteOfBit (s.ie id)).setWidth 64
  | .attr id => (s.attr id).setWidth 64
  | .ctl id => (s.ctl id).setWidth 64

/-- `MemRead(off, n)` (00_scope section 6.3, 20_memory R63): total, 0 for every unsupported read. -/
def State.memRead (s : State) (off : Nat) (n : Width) : BusData :=
  match regAt s.numSources off n with
  | some r => s.readReg r
  | none => 0

/-- Replace source `id`; nothing when there is no such source. -/
def State.modifySource (s : State) (id : Nat) (f : Source → Source) : State :=
  { s with src := s.src.modify id f }

/-- Replace the four registers of source `id`, its line bit kept. -/
def State.modifyRaw (s : State) (id : Nat) (f : SourceRaw → SourceRaw) : State :=
  s.modifySource id fun x => { x with raw := f x.raw }

/-- Store a written byte in a register: all eight bits of `gc`, `mth`, `attr` and `ctl` (D6), bit 0 of the pending and enable bytes
(30_encoding R103; D5), nothing in the read-only info word. -/
def State.storeReg (s : State) (r : Reg) (b : Byte) : State :=
  match r with
  | .gcfg => { s with gc := b }
  | .info => s
  | .mth => { s with mth := b }
  | .ip id => s.modifyRaw id fun x => { x with ip := b.getLsbD 0 }
  | .ie id => s.modifyRaw id fun x => { x with ie := b.getLsbD 0 }
  | .attr id => s.modifyRaw id fun x => { x with attr := b }
  | .ctl id => s.modifyRaw id fun x => { x with ctl := b }

end Sys2Proof.Machine
end

