-- ==== Sys2Proof/Machine/AttributeDecoder.lean ====
section
/-! DEFINITION. The Attribute Decoder (40_attribute_decoder): pure functions of the stored bytes, computed on demand (R127). -/

namespace Sys2Proof.Machine

/-- `nlbits = min((gc >> 1) & 0xF, L)` (R120). -/
def State.nlbits (s : State) : Nat := min ((s.gc >>> 1) &&& 0x0F).toNat s.levelBits

/-- `pw = L - nlbits`, the priority width (R121). -/
def State.pw (s : State) : Nat := s.levelBits - s.nlbits

/-- `level(i) = ctl[i] | (0xFF >> nlbits)` (R122). -/
def State.level (s : State) (i : Nat) : Byte := s.ctl i ||| ((0xFF : Byte) >>> s.nlbits)

/-- `priority(i) = 0` if `pw == 0`, else `((ctl[i] << nlbits) & 0xFF) | (0xFF >> pw)` (R123). -/
def State.priority (s : State) (i : Nat) : Byte :=
  if s.pw = 0 then 0 else (s.ctl i <<< s.nlbits) ||| ((0xFF : Byte) >>> s.pw)

/-- `enabled(i) = (ie[i] == 1)` (R126). -/
def State.enabled (s : State) (i : Nat) : Bool := s.ie i

/-- `TRIG_DECODE` applied to a 2-bit code (R124). -/
def TrigTable.decode (t : TrigTable) (code : BitVec 2) : TriggerMode :=
  match code.toNat with
  | 0 => t.code0
  | 1 => t.code1
  | 2 => t.code2
  | _ => t.code3

/-- `trig_code(i) = (attr[i] >> 1) & 0x3` (R124). -/
def State.trigCode (s : State) (i : Nat) : BitVec 2 := (s.attr i).extractLsb' 1 2

/-- `trigger(i) = TRIG_DECODE(trig_code(i))` (R124). -/
def State.trigger (s : State) (i : Nat) : TriggerMode := s.trig.decode (s.trigCode i)

/-- `shv(i) = attr[i][0]` (R125). -/
def State.shv (s : State) (i : Nat) : Bool := (s.attr i).getLsbD 0

/-- `DecodedAttributes[i]` (10_state R31). -/
structure Attributes where
  level : Byte
  priority : Byte
  enabled : Bool
  trigger : TriggerMode
  shv : Bool
  deriving DecidableEq, Repr

/-- `decode(s, i)` (00_scope section 6.3). -/
def State.attributes (s : State) (i : Nat) : Attributes :=
  ⟨s.level i, s.priority i, s.enabled i, s.trigger i, s.shv i⟩

end Sys2Proof.Machine
end

