-- ==== Sys2Proof/Machine/Flags.lean ====
section
/-! DEFINITION. The block has no status flags and no condition codes (10_state R34 and the text after it). The one condition it makes
detectable is the `Reserved` trigger mode (60_exceptions R232). -/

namespace Sys2Proof.Machine

/-- `reserved(s, i) = (trigger(s, i) == Reserved)` (60_exceptions R232). -/
def State.reserved (s : State) (i : Nat) : Bool := s.trigger i == .reserved

end Sys2Proof.Machine
end

