-- ==== Sys2Proof/Machine/Arbiter.lean ====
section
/-! DEFINITION. The Pending-Set Maintainer and the Dispatcher (43_pending_set_and_dispatch): membership, the strict order, the
pending list as filter and sort (R194 allows it), its head and the winner. -/

namespace Sys2Proof.Machine

/-- `member(s, i) = (ie[i] == 1) and (ip[i] == 1)` (R190). -/
def State.member (s : State) (i : Nat) : Bool := s.ie i && s.ip i

/-- `above(s, a, b)`: source `a` ranks above source `b` (R191). -/
def State.above (s : State) (a b : Nat) : Bool :=
  decide (s.level b < s.level a)
    || (s.level a == s.level b
      && (decide (s.priority b < s.priority a) || (s.priority a == s.priority b && decide (a < b))))

/-- Put a source at its place in a list held in the order of `above` (R194). -/
def insertRanked (above : Nat → Nat → Bool) (a : Nat) : List Nat → List Nat
  | [] => [a]
  | b :: rest => if above a b then a :: b :: rest else b :: insertRanked above a rest

/-- The ids of the pending set, ascending (R190). -/
def State.members (s : State) : List Nat := (List.range s.numSources).filter s.member

/-- `pending_list(s)`: the members, each ranking above the next (R193). -/
def State.pendingList (s : State) : List Nat := s.members.foldr (insertRanked s.above) []

/-- `head(s)` (R195). -/
def State.head (s : State) : Option Nat := s.pendingList.head?

/-- `winner(s)`: the head, if its level is at or above the threshold (R196, R203), as the triple of R197. -/
def State.winner (s : State) : Option Delivery :=
  match s.head with
  | some h => if s.mth ≤ s.level h then some ⟨h, s.level h, s.shv h⟩ else none
  | none => none

end Sys2Proof.Machine
end

