-- ==== Sys2Proof/Machine/Ops.lean ====
section
/-! DEFINITION. The operations the meanings share: delivering the winner, the three ways a call ends, register reads and writes, the
trigger state machine, acknowledge, snapshot and restore, construction, and serving the next event.

The block raises no exception and has no return from one (60_exceptions R230, R239): its hand-off to the CPU is `redispatch`, and the
CPU's part of it is `acknowledge`. -/

namespace Sys2Proof.Machine

/-- What `exec` and `step` answer. -/
abbrev Result := Host.Outcome State Fault Refusal

/-- `redispatch()`: recompute the winner from the state after the operation and deliver it (43_pending_set_and_dispatch R199). -/
def State.redispatch (s : State) : State := { s with out := s.winner }

/-- The state with what the served call returned (log 8). -/
def State.withReply (s : State) (r : Reply) : State := { s with reply := r }

/-- The end of every mutating event: Dispatcher re-run, CPU interface notified (43_pending_set_and_dispatch R201); nothing returned. -/
def mutated (s : State) : Result := .next (s.redispatch.withReply .nothing)

/-- The end of an event that changes nothing and returns nothing (20_memory R67). -/
def dropped (s : State) : Result := .next (s.withReply .nothing)

/-- The end of a read: the value is returned and nothing changes (20_memory R66). -/
def answered (v : BusData) (s : State) : Result := .next (s.withReply (.data v))

/-- A supported read of a register (20_memory R65, R66). -/
def readRegister (r : Reg) (s : State) : Result := answered (s.readReg r) s

/-- A supported write of a read/write register (20_memory R67). A register of a source the instance does not have is no offset of it:
the write is dropped (20_memory R63; log 11). -/
def writeRegister (r : Reg) (b : Byte) (s : State) : Result :=
  if s.hasReg r then mutated (s.storeReg r b) else dropped s

/-- `next_ip(t, old, v, ip)` of the trigger state machine (42_trigger_and_line_events R174 to R177); `free` is the value of
`draw({0, 1})`. -/
def nextIp (t : TriggerMode) (old v ip free : Bool) : Bool :=
  match t with
  | .level => v
  | .risingEdge => if !old && v then true else ip
  | .fallingEdge => if old && !v then true else ip
  | .reserved => free

/-- The pending bit after an acknowledge (42_trigger_and_line_events R180, R181); `ip && free` is `draw({ip, 0})`. -/
def ackIp (t : TriggerMode) (ip free : Bool) : Bool :=
  match t with
  | .level => ip
  | .risingEdge => false
  | .fallingEdge => false
  | .reserved => ip && free

/-- The next free bit (00_scope section 6.3; log 7). -/
def State.freeBit (s : State) : Bool := Config.draw s.draws

/-- Count the draw an event on source `id` makes: one when the source is in `Reserved` mode, none otherwise (R177, R181). -/
def State.countDraw (s : State) (id : Nat) : State :=
  { s with draws := if s.reserved id then s.draws + 1 else s.draws }

/-- `line_event(id, v)` (42_trigger_and_line_events R173). An id that names no line is ignored (30_encoding R94, D14; log 11). -/
def lineEvent (id : Nat) (v : Bool) (s : State) : Result :=
  if id < s.numSources then
    mutated ((s.countDraw id).modifySource id fun x =>
      ⟨{ x.raw with ip := nextIp (s.trigger id) x.line v x.raw.ip s.freeBit }, v⟩)
  else dropped s

/-- `ack(id)` (42_trigger_and_line_events R180, R181). An id that names no source is ignored (30_encoding R93, D14; log 11). -/
def acknowledge (id : Nat) (s : State) : Result :=
  if id < s.numSources then
    mutated ((s.countDraw id).modifyRaw id fun x => { x with ip := ackIp (s.trigger id) x.ip s.freeBit })
  else dropped s

/-- The record `snapshot()` returns (44_snapshot_restore R210, 30_encoding R108). -/
def State.record (s : State) : Record := ⟨s.gc, s.mth, s.src.map (·.raw)⟩

/-- The state with a record's registers; line bits are not written (44_snapshot_restore R211). -/
def State.loadRecord (s : State) (rec : Record) : State :=
  { s with gc := rec.gc, mth := rec.mth, src := List.zipWith (fun x r => { x with raw := r }) s.src rec.src }

/-- Why a construction is rejected, if it is (70_reset_and_hazards R260). -/
def rejectionOf (p : ResetParams) : Option ConfigError :=
  if p.numSources = 0 then some .noSources
  else if p.aperture < 0x1000 + 4 * p.numSources then some .apertureTooSmall
  else if 8 < p.levelBits then some .tooManyLevelBits
  else none

/-- The controller an accepted construction creates: every register and line bit 0, `out = None` (70_reset_and_hazards R260, R262,
10_state R37). `TRIG_DECODE` is a property of the hardware and no operand of `RESET` (log 5); the two reserved source indices are ids of the
new instance (log 18); the events still to come and the count of draws
are no state of the controller. -/
def State.construct (p : ResetParams) (s : State) : State where
  base := p.base
  aperture := p.aperture
  levelBits := p.levelBits
  cpu := p.cpu
  trig := s.trig
  srcSoft := Config.srcSoft p.numSources
  srcTimer := Config.srcTimer p.numSources
  gc := 0x00
  mth := 0x00
  src := List.replicate p.numSources Source.zero
  out := none
  reply := .nothing
  inputs := s.inputs
  draws := s.draws

/-- The state with other events waiting. -/
def State.withInputs (s : State) (inputs : List (List Byte)) : State := { s with inputs := inputs }

/-- The next event's frame and the state whose first waiting event it no longer is (20_memory R68; log 2). -/
def State.fetch (s : State) : Option (List Byte × State) :=
  match s.inputs with
  | [] => none
  | frame :: rest => some (frame, s.withInputs rest)

/-- The state with one more event in front of those waiting. -/
def State.withFrame (s : State) (frame : List Byte) : State := s.withInputs (frame :: s.inputs)

end Sys2Proof.Machine
end

