-- ==== Sys2Proof/Machine/HostOps.lean ====
section
/-! DEFINITION. The three host operations (70_reset_and_hazards R260, 44_snapshot_restore). -/

namespace Sys2Proof.Machine

/-- `RESET`: construct the controller, or `reject ConfigError` (R260). A rejected construction yields no controller, so there is no
next state (log 9). -/
def execReset (p : ResetParams) (s : State) : Result :=
  match rejectionOf p with
  | some e => .fault (.configError e)
  | none => .next (s.construct p)

/-- `SNAPSHOT`: return the record; nothing changes (R210). -/
def execSnapshot (s : State) : Result := .next (s.withReply (.record s.record))

/-- `RESTORE`: load a record of the instance's size and re-run the Dispatcher (R211); reject one of another size and change nothing
(R212; log 10). -/
def execRestore (rec : Record) (s : State) : Result :=
  if rec.src.length = s.numSources then mutated (s.loadRecord rec)
  else .next (s.withReply (.rejected .recordSize))

end Sys2Proof.Machine
end

