-- ==== Sys2Proof/Machine/Lines.lean ====
section
/-! DEFINITION. Line events and acknowledge (42_trigger_and_line_events). -/

namespace Sys2Proof.Machine

/-- `LINE_ASSERT`: `line_event(id, 1)` (R171). -/
def execLineAssert (id : Nat) (s : State) : Result := lineEvent id true s

/-- `LINE_DEASSERT`: `line_event(id, 0)` (R172). -/
def execLineDeassert (id : Nat) (s : State) : Result := lineEvent id false s

/-- `ACK`: clear the pending bit of an edge-triggered source, re-run the Dispatcher (R180, R181). -/
def execAck (id : Nat) (s : State) : Result := acknowledge id s

end Sys2Proof.Machine
end

