-- ==== Sys2Proof/Machine/Mmio.lean ====
section
/-! DEFINITION. The sixteen MMIO operations (41_mmio_operations). -/

namespace Sys2Proof.Machine

/-- `WR_GCFG`: `gc <- b; redispatch()` (R140). -/
def execWrGcfg (b : Byte) (s : State) : Result := writeRegister .gcfg b s

/-- `RD_GCFG`: `return gc` (R141). -/
def execRdGcfg (s : State) : Result := readRegister .gcfg s

/-- `RD_INFO`: `return INFO_VALUE` (R142). -/
def execRdInfo (s : State) : Result := readRegister .info s

/-- `WR_INFO`: nothing; the info word is read-only and the Dispatcher is not re-run (R143). -/
def execWrInfo (_data : BitVec 32) (s : State) : Result := dropped s

/-- `WR_MTH`: `mth <- b; redispatch()` (R144). -/
def execWrMth (b : Byte) (s : State) : Result := writeRegister .mth b s

/-- `RD_MTH`: `return mth` (R145). -/
def execRdMth (s : State) : Result := readRegister .mth s

/-- `WR_IP`: `ip[id] <- b[0]; redispatch()`, whatever the trigger mode and the line (R146). -/
def execWrIp (id : Nat) (b : Byte) (s : State) : Result := writeRegister (.ip id) b s

/-- `RD_IP`: `return zext_8(ip[id])` (R147). -/
def execRdIp (id : Nat) (s : State) : Result := readRegister (.ip id) s

/-- `WR_IE`: `ie[id] <- b[0]; redispatch()` (R148). -/
def execWrIe (id : Nat) (b : Byte) (s : State) : Result := writeRegister (.ie id) b s

/-- `RD_IE`: `return zext_8(ie[id])` (R149). -/
def execRdIe (id : Nat) (s : State) : Result := readRegister (.ie id) s

/-- `WR_ATTR`: `attr[id] <- b; redispatch()`; the pending bit is not re-evaluated (R150, R182). -/
def execWrAttr (id : Nat) (b : Byte) (s : State) : Result := writeRegister (.attr id) b s

/-- `RD_ATTR`: `return attr[id]` (R151). -/
def execRdAttr (id : Nat) (s : State) : Result := readRegister (.attr id) s

/-- `WR_CTL`: `ctl[id] <- b; redispatch()` (R152). -/
def execWrCtl (id : Nat) (b : Byte) (s : State) : Result := writeRegister (.ctl id) b s

/-- `RD_CTL`: `return ctl[id]` (R153). -/
def execRdCtl (id : Nat) (s : State) : Result := readRegister (.ctl id) s

/-- `WR_DROP`: nothing (R154). -/
def execWrDrop (_off : Nat) (_n : Width) (_data : BusData) (s : State) : Result := dropped s

/-- `RD_ZERO`: `return 0` (R155). -/
def execRdZero (_off : Nat) (_n : Width) (s : State) : Result := answered 0 s

end Sys2Proof.Machine
end

