-- ==== Sys2Proof/Machine/Dispatch.lean ====
section
/-! DEFINITION. One arm per operation (30_encoding R104). -/

namespace Sys2Proof.Machine

def exec (i : Instr) (s : State) : Host.Outcome State Fault Refusal :=
  match i with
  | .reset p => Sys2Proof.Machine.execReset p s
  | .wrGcfg b => Sys2Proof.Machine.execWrGcfg b s
  | .rdGcfg => Sys2Proof.Machine.execRdGcfg s
  | .rdInfo => Sys2Proof.Machine.execRdInfo s
  | .wrInfo data => Sys2Proof.Machine.execWrInfo data s
  | .wrMth b => Sys2Proof.Machine.execWrMth b s
  | .rdMth => Sys2Proof.Machine.execRdMth s
  | .wrIp id b => Sys2Proof.Machine.execWrIp id b s
  | .rdIp id => Sys2Proof.Machine.execRdIp id s
  | .wrIe id b => Sys2Proof.Machine.execWrIe id b s
  | .rdIe id => Sys2Proof.Machine.execRdIe id s
  | .wrAttr id b => Sys2Proof.Machine.execWrAttr id b s
  | .rdAttr id => Sys2Proof.Machine.execRdAttr id s
  | .wrCtl id b => Sys2Proof.Machine.execWrCtl id b s
  | .rdCtl id => Sys2Proof.Machine.execRdCtl id s
  | .wrDrop off n data => Sys2Proof.Machine.execWrDrop off n data s
  | .rdZero off n => Sys2Proof.Machine.execRdZero off n s
  | .lineAssert id => Sys2Proof.Machine.execLineAssert id s
  | .lineDeassert id => Sys2Proof.Machine.execLineDeassert id s
  | .ack id => Sys2Proof.Machine.execAck id s
  | .snapshot => Sys2Proof.Machine.execSnapshot s
  | .restore rec => Sys2Proof.Machine.execRestore rec s

end Sys2Proof.Machine
end

