-- ==== Sys2Proof/Machine/Step.lean ====
section
/-! DEFINITION. One step serves one event (20_memory R68, 43_pending_set_and_dispatch R201). -/

namespace Sys2Proof.Machine

/-- Serve the next waiting event: decode its frame for this instance's `N` and execute it. With no event waiting nothing happens:
between events nothing changes (10_state R34; log 2). -/
def step (s : State) : Host.Outcome State Fault Refusal :=
  match s.fetch with
  | none => .next s
  | some (frame, s') =>
    match decode s.numSources frame with
    | .ok i => exec i s'
    | .error e => .refused (.malformedFrame e)

/-- `s` with the event whose bits are `w` placed first among the waiting events, so that the next step serves it (log 3, log 13). -/
def State.withFetchWord (s : State) (nbits w : Nat) : State :=
  s.withFrame (frameOfWord nbits w)

end Sys2Proof.Machine
end

