-- ==== Sys2Proof/Safety.lean ====
section
/-! DEFINITION. The terms claims are stated in: the invariant of a constructed instance, what it means that the rest of the machine is
unchanged, the premise under which no free value is taken, and the list-free second definition of the winner. -/

namespace Sys2Proof.Machine

/-- The construction parameters are ones `RESET` accepts (70_reset_and_hazards R260). -/
def State.ParamsValid (s : State) : Prop :=
  s.numSources ≠ 0 ∧ 0x1000 + 4 * s.numSources ≤ s.aperture ∧ s.levelBits ≤ 8

/-- The two reserved source indices are ids of the instance, and distinct if it has two sources (00_scope R5, D22; log 18). -/
def State.SrcValid (s : State) : Prop :=
  s.srcSoft < s.numSources ∧ s.srcTimer < s.numSources ∧ (2 ≤ s.numSources → s.srcSoft ≠ s.srcTimer)

/-- The delivered value is the winner of the current state (10_state R33, R38 (d); 43_pending_set_and_dispatch R202). -/
def State.OutCurrent (s : State) : Prop := s.out = s.winner

/-- What holds of a constructed instance after every step. -/
def State.Inv (s : State) : Prop := s.ParamsValid ∧ s.SrcValid ∧ s.OutCurrent

/-- No source is in `Reserved` trigger mode: the premise under which a step draws nothing (60_exceptions R232). -/
def State.NoReserved (s : State) : Prop := ∀ i, i < s.numSources → s.reserved i = false

/-- The construction parameters are unchanged (00_scope R5: fixed for the instance's lifetime). -/
def SameParams (s t : State) : Prop :=
  t.base = s.base ∧ t.aperture = s.aperture ∧ t.numSources = s.numSources ∧ t.levelBits = s.levelBits ∧ t.cpu = s.cpu
    ∧ t.trig = s.trig ∧ t.srcSoft = s.srcSoft ∧ t.srcTimer = s.srcTimer

/-- The global registers are unchanged. -/
def SameGlobals (s t : State) : Prop := t.gc = s.gc ∧ t.mth = s.mth

/-- Every source but `id` is unchanged, its four registers and its line bit. -/
def SameOtherSources (id : Nat) (s t : State) : Prop := ∀ j, j ≠ id → t.source j = s.source j

/-- Nothing but source `id`, the delivered value, the reply and the count of draws differs. -/
def OnlySource (id : Nat) (s t : State) : Prop :=
  SameParams s t ∧ SameGlobals s t ∧ SameOtherSources id s t ∧ t.inputs = s.inputs

/-- Every register of the block as a read of any offset and width shows it is unchanged, but at one access `(off, n)`. -/
def SameReadsExcept (off : Nat) (n : Width) (s t : State) : Prop :=
  ∀ off' n', (off', n') ≠ (off, n) → t.memRead off' n' = s.memRead off' n'

/-- The operations that end with `redispatch()` (43_pending_set_and_dispatch R200). -/
def redispatches : Instr → Bool
  | .reset _ => true
  | .wrGcfg _ => true
  | .rdGcfg => false
  | .rdInfo => false
  | .wrInfo _ => false
  | .wrMth _ => true
  | .rdMth => false
  | .wrIp _ _ => true
  | .rdIp _ => false
  | .wrIe _ _ => true
  | .rdIe _ => false
  | .wrAttr _ _ => true
  | .rdAttr _ => false
  | .wrCtl _ _ => true
  | .rdCtl _ => false
  | .wrDrop _ _ _ => false
  | .rdZero _ _ => false
  | .lineAssert _ => true
  | .lineDeassert _ => true
  | .ack _ => true
  | .snapshot => false
  | .restore _ => true

/-- The line event `(id, v)` (30_encoding R94). -/
def lineOp (id : Nat) (v : Bool) : Instr := if v then .lineAssert id else .lineDeassert id

/-- The better of the best source found so far and source `i`, if `i` is a member that passes the threshold. -/
def State.scanStep (s : State) (best : Option Nat) (i : Nat) : Option Nat :=
  if s.member i && decide (s.mth ≤ s.level i) then
    match best with
    | none => some i
    | some b => if s.above i b then some i else some b
  else best

/-- The winner by one linear scan of the source array, with no list held in order (43_pending_set_and_dispatch R198). -/
def State.scanWinner (s : State) : Option Delivery :=
  ((List.range s.numSources).foldl s.scanStep none).map fun h => ⟨h, s.level h, s.shv h⟩

end Sys2Proof.Machine
end

