-- ==== Sys2Proof/Certificates/Slice0/Obligations.lean ====
section
/-! DEFINITION. The statements for the provers. A docstring names the rule a statement formalises; where a clause rests on a choice of
the model or on a decision the spec marks as its own, it says which. -/

open Sys2Proof Sys2Proof.Machine

/-! ### Serving events -/

/-- When the first waiting frame decodes to an operation, the step is that operation on the state that no longer holds the frame.
The list of waiting events is the model's (log 2). -/
def Obligations.StepRunsTheDecodedEvent : Prop :=
  ∀ (s : State) (frame : List Byte) (rest : List (List Byte)) (i : Instr),
    s.inputs = frame :: rest → decode s.numSources frame = .ok i → step s = exec i { s with inputs := rest }

/-- 10_state R34: between events nothing changes. That a step with no waiting event is how the model shows it is log 2. -/
def Obligations.StepWithoutEventChangesNothing : Prop :=
  ∀ s : State, s.inputs = [] → step s = .next s

/-- A few frames written out byte by byte select the operations they stand for, for an instance with 32 sources (30_encoding R104,
the examples of 41_mmio_operations R140, R144, R146, R153). The frame layout is the model's (log 1). -/
def Obligations.WrittenOutFramesDecode : Prop :=
  decode 32 [0x00, 0x00, 0x00, 0x00, 0x01, 0x00, 0x00, 0x0C] = .ok (.wrGcfg 0x0C)
    ∧ decode 32 [0x0B, 0x00, 0x00, 0x00, 0x01, 0x00, 0x00, 0x80] = .ok (.wrMth 0x80)
    ∧ decode 32 [0x28, 0x10, 0x00, 0x00, 0x01, 0x00, 0x00, 0x01] = .ok (.wrIp 10 0x01)
    ∧ decode 32 [0x17, 0x10, 0x00, 0x00, 0x00, 0x00, 0x00] = .ok (.rdCtl 5)
    ∧ decode 32 [0x80, 0x10, 0x00, 0x00, 0x00, 0x00, 0x00] = .ok (.rdZero 0x1080 .one)
    ∧ decode 32 [0x05, 0x00, 0x00, 0x00, 0x02, 0x00, 0x01] = .ok (.lineAssert 5)
    ∧ decode 32 [0x0A, 0x00, 0x00, 0x00, 0x03, 0x00] = .ok (.ack 10)
    ∧ decode 32 [0x00, 0x00, 0x00, 0x00, 0x05, 0x00] = .ok .snapshot

/-- Decoding the frame of an operation gives it back, for every well-formed operation and every operand; offsets, ids, `N` and the other
parameters have no upper bound (92_eei_decisions D13, D15). The frame layout is the model's (log 1). -/
def Obligations.DecodeOfEncodeIsTheOperation : Prop :=
  ∀ (N : Nat) (i : Instr), i.wellFormed N = true → decode N (encode i) = .ok i

/-- 30_encoding R102 and R104 and 20_memory R62 and R63 for reads: the row each offset and width selects, `RD_ZERO` for every other. That
no other width is supported is the spec's decision D7. -/
def Obligations.MmioReadSelectsItsRow : Prop :=
  ∀ (N off : Nat) (n : Width),
    (off = 0x0000 → n = .one → decode N (readFrame off n) = .ok .rdGcfg)
    ∧ (off = 0x0004 → n = .four → decode N (readFrame off n) = .ok .rdInfo)
    ∧ (off = 0x000B → n = .one → decode N (readFrame off n) = .ok .rdMth)
    ∧ (∀ id, id < N → n = .one →
        (off = 0x1000 + 4 * id + 0 → decode N (readFrame off n) = .ok (.rdIp id))
        ∧ (off = 0x1000 + 4 * id + 1 → decode N (readFrame off n) = .ok (.rdIe id))
        ∧ (off = 0x1000 + 4 * id + 2 → decode N (readFrame off n) = .ok (.rdAttr id))
        ∧ (off = 0x1000 + 4 * id + 3 → decode N (readFrame off n) = .ok (.rdCtl id)))
    ∧ (¬ (off = 0x0000 ∧ n = .one) → ¬ (off = 0x0004 ∧ n = .four) → ¬ (off = 0x000B ∧ n = .one) →
        ¬ (n = .one ∧ 0x1000 ≤ off ∧ off < 0x1000 + 4 * N) →
        decode N (readFrame off n) = .ok (.rdZero off n))

/-- 30_encoding R102 and R104, 20_memory R62, R63 and R65 for writes of `data`, `n` bytes wide: the row each offset and width selects with
the byte `data[7:0]`, `WR_DROP` for every other. That no other width is supported is the spec's decision D7. -/
def Obligations.MmioWriteSelectsItsRow : Prop :=
  ∀ (N off : Nat) (n : Width) (data : Nat), data < 256 ^ n.bytes →
    (off = 0x0000 → n = .one → decode N (writeFrame off n data) = .ok (.wrGcfg (BitVec.ofNat 8 data)))
    ∧ (off = 0x0004 → n = .four → decode N (writeFrame off n data) = .ok (.wrInfo (BitVec.ofNat 32 data)))
    ∧ (off = 0x000B → n = .one → decode N (writeFrame off n data) = .ok (.wrMth (BitVec.ofNat 8 data)))
    ∧ (∀ id, id < N → n = .one →
        (off = 0x1000 + 4 * id + 0 → decode N (writeFrame off n data) = .ok (.wrIp id (BitVec.ofNat 8 data)))
        ∧ (off = 0x1000 + 4 * id + 1 → decode N (writeFrame off n data) = .ok (.wrIe id (BitVec.ofNat 8 data)))
        ∧ (off = 0x1000 + 4 * id + 2 → decode N (writeFrame off n data) = .ok (.wrAttr id (BitVec.ofNat 8 data)))
        ∧ (off = 0x1000 + 4 * id + 3 → decode N (writeFrame off n data) = .ok (.wrCtl id (BitVec.ofNat 8 data))))
    ∧ (¬ (off = 0x0000 ∧ n = .one) → ¬ (off = 0x0004 ∧ n = .four) → ¬ (off = 0x000B ∧ n = .one) →
        ¬ (n = .one ∧ 0x1000 ≤ off ∧ off < 0x1000 + 4 * N) →
        decode N (writeFrame off n data) = .ok (.wrDrop off n (BitVec.ofNat 64 data)))

/-! ### The register interface -/

/-- A read of any offset and width returns `MemRead(off, n)` and changes nothing, so a second read of it returns the same
(20_memory R63, R66; that reads have no side effect is the spec's decision D21). -/
def Obligations.ReadReturnsMemReadAndIsIdempotent : Prop :=
  ∀ (s : State) (off : Nat) (n : Width) (rest : List (List Byte)),
    s.inputs = readFrame off n :: readFrame off n :: rest →
    ∃ t u, step s = .next t ∧ step t = .next u
      ∧ t = { s with inputs := readFrame off n :: rest, reply := .data (s.memRead off n) }
      ∧ u = { s with inputs := rest, reply := .data (s.memRead off n) }

/-- A byte write of a register of the instance is read back at once, and every read of every other offset and width returns what it
returned before (20_memory R67, R69). That the pending and enable bytes hold bit 0 alone is decision D5, that every bit of the other
registers is stored is decision D6. -/
def Obligations.RegisterWriteReadsBackAndIsLocal : Prop :=
  ∀ (s : State) (r : Reg) (b : Byte) (rest : List (List Byte)), r ≠ .info → s.hasReg r = true →
    s.inputs = writeRegFrame r b.toNat :: rest →
    ∃ t, step s = .next t
      ∧ t.memRead r.offset .one = (match r with
          | .ip _ => (b &&& 1).setWidth 64
          | .ie _ => (b &&& 1).setWidth 64
          | _ => b.setWidth 64)
      ∧ SameReadsExcept r.offset .one s t ∧ SameParams s t ∧ (∀ j, t.line j = s.line j)
      ∧ t.out = t.winner ∧ t.reply = .nothing ∧ t.inputs = rest ∧ t.draws = s.draws

/-- 41_mmio_operations R141, R142, R145, R147, R149, R151, R153, R155: every read operation completes, returns its register in the low
bits with zeros above (bit 0 for the pending and enable bytes: D5; the raw bytes: D6), and changes nothing else. -/
def Obligations.ReadOperationsReturnTheirRegister : Prop :=
  ∀ (s : State) (id : Nat) (off : Nat) (n : Width), id < s.numSources →
    exec .rdGcfg s = .next { s with reply := .data (s.gc.setWidth 64) }
    ∧ exec .rdInfo s = .next { s with reply := .data ((Config.infoValue s.levelBits s.numSources).setWidth 64) }
    ∧ exec .rdMth s = .next { s with reply := .data (s.mth.setWidth 64) }
    ∧ exec (.rdIp id) s = .next { s with reply := .data (if s.ip id then 1 else 0) }
    ∧ exec (.rdIe id) s = .next { s with reply := .data (if s.ie id then 1 else 0) }
    ∧ exec (.rdAttr id) s = .next { s with reply := .data ((s.attr id).setWidth 64) }
    ∧ exec (.rdCtl id) s = .next { s with reply := .data ((s.ctl id).setWidth 64) }
    ∧ exec (.rdZero off n) s = .next { s with reply := .data 0 }

/-- 41_mmio_operations R143 and R154: a write of the info word and a write that no row supports complete and change nothing; the
Dispatcher is not re-run (D26). -/
def Obligations.DroppedWritesChangeNothing : Prop :=
  ∀ (s : State) (d : BitVec 32) (off : Nat) (n : Width) (data : BusData),
    exec (.wrInfo d) s = .next { s with reply := .nothing }
    ∧ exec (.wrDrop off n data) s = .next { s with reply := .nothing }

/-- 41_mmio_operations R140: `WR_GCFG` stores all eight bits (D6), delivers the new winner, and changes nothing else; no pending-set
membership changes. -/
def Obligations.GlobalConfigWrite : Prop :=
  ∀ (s : State) (b : Byte), ∃ t, exec (.wrGcfg b) s = .next t
    ∧ t = { s with gc := b, out := t.winner, reply := .nothing }
    ∧ (∀ i, t.member i = s.member i)

/-- 41_mmio_operations R144: `WR_MTH` stores the threshold, delivers the new winner, and changes nothing else; no decoded attribute, no
membership and no place in the order changes. -/
def Obligations.ThresholdWrite : Prop :=
  ∀ (s : State) (b : Byte), ∃ t, exec (.wrMth b) s = .next t
    ∧ t = { s with mth := b, out := t.winner, reply := .nothing }
    ∧ (∀ i, t.attributes i = s.attributes i) ∧ t.pendingList = s.pendingList

/-- 41_mmio_operations R146, 42_trigger_and_line_events R178: `WR_IP` makes bit 0 of the byte the pending bit (D5), in every trigger mode and
whatever the line, and changes nothing else but the delivered winner. -/
def Obligations.PendingByteWrite : Prop :=
  ∀ (s : State) (id : Nat) (b : Byte), id < s.numSources → ∃ t, exec (.wrIp id b) s = .next t
    ∧ t.source id = ⟨{ (s.source id).raw with ip := b.getLsbD 0 }, s.line id⟩
    ∧ OnlySource id s t ∧ t.draws = s.draws ∧ t.out = t.winner ∧ t.reply = .nothing

/-- 41_mmio_operations R148: `WR_IE` makes bit 0 of the byte the enable bit (D5); the pending bit is kept, and the source is a member
exactly if it is now enabled and pending. -/
def Obligations.EnableByteWrite : Prop :=
  ∀ (s : State) (id : Nat) (b : Byte), id < s.numSources → ∃ t, exec (.wrIe id b) s = .next t
    ∧ t.source id = ⟨{ (s.source id).raw with ie := b.getLsbD 0 }, s.line id⟩
    ∧ OnlySource id s t ∧ t.draws = s.draws ∧ t.out = t.winner ∧ t.reply = .nothing
    ∧ t.member id = (b.getLsbD 0 && s.ip id)

/-- 41_mmio_operations R150, 42_trigger_and_line_events R182: `WR_ATTR` stores all eight bits (D6); the pending bit and the line bit are kept
although the trigger mode may change (D10), and the pending set keeps its members and its order. -/
def Obligations.AttrByteWrite : Prop :=
  ∀ (s : State) (id : Nat) (b : Byte), id < s.numSources → ∃ t, exec (.wrAttr id b) s = .next t
    ∧ t.source id = ⟨{ (s.source id).raw with attr := b }, s.line id⟩
    ∧ OnlySource id s t ∧ t.draws = s.draws ∧ t.out = t.winner ∧ t.reply = .nothing
    ∧ t.pendingList = s.pendingList

/-- 41_mmio_operations R152: `WR_CTL` stores all eight bits (D6) and re-decodes this source alone; membership does not change, and with
`nlbits == 0` the source's level stays 0xFF. -/
def Obligations.CtlByteWrite : Prop :=
  ∀ (s : State) (id : Nat) (b : Byte), id < s.numSources → ∃ t, exec (.wrCtl id b) s = .next t
    ∧ t.source id = ⟨{ (s.source id).raw with ctl := b }, s.line id⟩
    ∧ OnlySource id s t ∧ t.draws = s.draws ∧ t.out = t.winner ∧ t.reply = .nothing
    ∧ (∀ i, t.member i = s.member i) ∧ (∀ j, j ≠ id → t.attributes j = s.attributes j)
    ∧ (s.nlbits = 0 → t.level id = 0xFF)

/-- An operation on a source id the instance does not have completes and changes nothing; such a read returns 0. For line events and
acknowledges this is what D14 says of an implementation that can be handed such an id (30_encoding R93, R94; log 11); an MMIO frame
never decodes to such an operation. -/
def Obligations.AbsentSourceIsIgnored : Prop :=
  ∀ (s : State) (id : Nat) (b : Byte), s.numSources ≤ id →
    exec (.wrIp id b) s = .next { s with reply := .nothing }
    ∧ exec (.wrIe id b) s = .next { s with reply := .nothing }
    ∧ exec (.wrAttr id b) s = .next { s with reply := .nothing }
    ∧ exec (.wrCtl id b) s = .next { s with reply := .nothing }
    ∧ exec (.rdIp id) s = .next { s with reply := .data 0 }
    ∧ exec (.rdIe id) s = .next { s with reply := .data 0 }
    ∧ exec (.rdAttr id) s = .next { s with reply := .data 0 }
    ∧ exec (.rdCtl id) s = .next { s with reply := .data 0 }
    ∧ exec (.lineAssert id) s = .next { s with reply := .nothing }
    ∧ exec (.lineDeassert id) s = .next { s with reply := .nothing }
    ∧ exec (.ack id) s = .next { s with reply := .nothing }

/-! ### Line events and acknowledge -/

/-- 42_trigger_and_line_events R171 to R174: in `Level` mode the pending bit becomes the line value, also when the line does not change
(D20); the event writes `line[id]`, `ip[id]` and the delivered winner, and nothing else. -/
def Obligations.LineEventInLevelMode : Prop :=
  ∀ (s : State) (id : Nat) (v : Bool), id < s.numSources → s.trigger id = .level →
    ∃ t, exec (lineOp id v) s = .next t
      ∧ t.source id = ⟨{ (s.source id).raw with ip := v }, v⟩
      ∧ OnlySource id s t ∧ t.draws = s.draws ∧ t.out = t.winner ∧ t.reply = .nothing

/-- 42_trigger_and_line_events R171 to R173 and R175: in `RisingEdge` mode a 0 to 1 change of the line sets the pending bit and no line
event clears it. -/
def Obligations.LineEventInRisingEdgeMode : Prop :=
  ∀ (s : State) (id : Nat) (v : Bool), id < s.numSources → s.trigger id = .risingEdge →
    ∃ t, exec (lineOp id v) s = .next t
      ∧ t.source id = ⟨{ (s.source id).raw with ip := if s.line id = false ∧ v = true then true else s.ip id }, v⟩
      ∧ OnlySource id s t ∧ t.draws = s.draws ∧ t.out = t.winner ∧ t.reply = .nothing

/-- 42_trigger_and_line_events R171 to R173 and R176: in `FallingEdge` mode a 1 to 0 change of the line sets the pending bit and no line
event clears it. -/
def Obligations.LineEventInFallingEdgeMode : Prop :=
  ∀ (s : State) (id : Nat) (v : Bool), id < s.numSources → s.trigger id = .fallingEdge →
    ∃ t, exec (lineOp id v) s = .next t
      ∧ t.source id = ⟨{ (s.source id).raw with ip := if s.line id = true ∧ v = false then true else s.ip id }, v⟩
      ∧ OnlySource id s t ∧ t.draws = s.draws ∧ t.out = t.winner ∧ t.reply = .nothing

/-- 42_trigger_and_line_events R177 (decision D3): in `Reserved` mode the pending bit becomes a free value, taken from the opaque
`Config.draw` at the state's count of draws (log 7); the line bit and the dispatch are as in every mode. -/
def Obligations.LineEventInReservedMode : Prop :=
  ∀ (s : State) (id : Nat) (v : Bool), id < s.numSources → s.trigger id = .reserved →
    ∃ t, exec (lineOp id v) s = .next t
      ∧ t.source id = ⟨{ (s.source id).raw with ip := Config.draw s.draws }, v⟩
      ∧ OnlySource id s t ∧ t.draws = s.draws + 1 ∧ t.out = t.winner ∧ t.reply = .nothing

/-- 42_trigger_and_line_events R180: `ACK` clears the pending bit of an edge-triggered source, leaves a `Level` source alone, and re-runs the
Dispatcher; any id in range is accepted (D23), and nothing else changes. -/
def Obligations.AckClearsEdgeSourcesOnly : Prop :=
  ∀ (s : State) (id : Nat), id < s.numSources →
    (s.trigger id = .level →
      ∃ t, exec (.ack id) s = .next t ∧ t = { s with out := s.winner, reply := .nothing })
    ∧ (s.trigger id = .risingEdge ∨ s.trigger id = .fallingEdge →
      ∃ t, exec (.ack id) s = .next t
        ∧ t.source id = ⟨{ (s.source id).raw with ip := false }, s.line id⟩
        ∧ OnlySource id s t ∧ t.draws = s.draws ∧ t.out = t.winner ∧ t.reply = .nothing)

/-- 42_trigger_and_line_events R181 (decision D3): `ACK` of a source in `Reserved` mode clears the pending bit or leaves it, as the free
value of log 7 says, and never sets it. -/
def Obligations.AckInReservedModeNeverSets : Prop :=
  ∀ (s : State) (id : Nat), id < s.numSources → s.trigger id = .reserved →
    ∃ t, exec (.ack id) s = .next t
      ∧ t.source id = ⟨{ (s.source id).raw with ip := s.ip id && Config.draw s.draws }, s.line id⟩
      ∧ (t.ip id = true → s.ip id = true)
      ∧ OnlySource id s t ∧ t.draws = s.draws + 1 ∧ t.out = t.winner ∧ t.reply = .nothing

/-- 42_trigger_and_line_events R175, R176: a latched edge is cleared by `ACK` of its source or a software write of its pending byte
(or by the host's `RESET` or `RESTORE`), and by no other operation. -/
def Obligations.LatchedEdgeStaysUntilAckOrWrite : Prop :=
  ∀ (i : Instr) (s t : State) (id : Nat), s.trigger id = .risingEdge ∨ s.trigger id = .fallingEdge → s.ip id = true →
    exec i s = .next t → i ≠ .ack id → (∀ b, i ≠ .wrIp id b) → (∀ p, i ≠ .reset p) → (∀ rec, i ≠ .restore rec) →
    t.ip id = true

/-- The idempotence property after 42_trigger_and_line_events R181: asserting again the line of a pending `Level` source changes nothing,
the pending list and the delivered value included. -/
def Obligations.ReassertingPendingLevelLineChangesNothing : Prop :=
  ∀ (s : State) (id : Nat), id < s.numSources → s.trigger id = .level → s.line id = true → s.ip id = true → s.OutCurrent →
    exec (.lineAssert id) s = .next { s with reply := .nothing }

/-- 60_exceptions R237: two line events on different sources, neither in `Reserved` mode, end in the same state in either order. -/
def Obligations.LineEventsOnDifferentSourcesCommute : Prop :=
  ∀ (s : State) (a b : Nat) (va vb : Bool), a ≠ b → s.trigger a ≠ .reserved → s.trigger b ≠ .reserved →
    a < s.numSources → b < s.numSources →
    ∃ t u w, exec (lineOp a va) s = .next t ∧ exec (lineOp b vb) t = .next w
      ∧ exec (lineOp b vb) s = .next u ∧ exec (lineOp a va) u = .next w

/-! ### The attribute decoder -/

/-- 40_attribute_decoder R120: `nlbits = min((gc >> 1) & 0xF, L)`; bit 0 and bits 7:5 of `gc` do not enter; field values above `L` give
`L`. -/
def Obligations.NlbitsIsTheFieldClampedToL : Prop :=
  ∀ s : State, s.nlbits = min (s.gc.toNat / 2 % 16) s.levelBits
    ∧ s.nlbits ≤ min 15 s.levelBits
    ∧ (∀ b : Byte, (∀ k, 1 ≤ k → k ≤ 4 → b.getLsbD k = s.gc.getLsbD k) → ({ s with gc := b } : State).nlbits = s.nlbits)
    ∧ (s.levelBits ≤ s.gc.toNat / 2 % 16 → s.nlbits = s.levelBits)

/-- 40_attribute_decoder R121: `pw = L - nlbits`, so `pw <= L` and `nlbits + pw == L`. -/
def Obligations.PriorityWidthIsTheRestOfL : Prop :=
  ∀ s : State, s.pw = s.levelBits - s.nlbits ∧ s.pw ≤ s.levelBits ∧ s.nlbits + s.pw = s.levelBits

/-- 40_attribute_decoder R122: the level is the top `nlbits` bits of the ctl byte with every bit below them 1; 0xFF when `nlbits == 0`, the
ctl byte itself when `nlbits == 8`, at least `0xFF >> nlbits`, and never 0 unless `nlbits == 8`. -/
def Obligations.LevelIsTheTopBitsLeftJustified : Prop :=
  ∀ (s : State) (i : Nat), s.levelBits ≤ 8 →
    s.level i = s.ctl i ||| ((0xFF : Byte) >>> s.nlbits)
    ∧ (∀ k, k < 8 → (s.level i).getLsbD k = if k < 8 - s.nlbits then true else (s.ctl i).getLsbD k)
    ∧ (s.nlbits = 0 → s.level i = 0xFF)
    ∧ (s.nlbits = 8 → s.level i = s.ctl i)
    ∧ (0xFF : Byte) >>> s.nlbits ≤ s.level i
    ∧ (s.level i = 0 → s.nlbits = 8)

/-- 40_attribute_decoder R123: the priority is 0 when `pw == 0`, else the next `pw` bits of the ctl byte, left-justified, every bit below
them 1. That the formula also holds at `nlbits == 0` is decision D11. -/
def Obligations.PriorityIsTheNextBitsLeftJustified : Prop :=
  ∀ (s : State) (i : Nat), s.levelBits ≤ 8 →
    (s.pw = 0 → s.priority i = 0)
    ∧ (s.pw ≠ 0 → ∀ k, k < 8 →
        (s.priority i).getLsbD k = if k < 8 - s.pw then true else (s.ctl i).getLsbD (k - s.nlbits))

/-- 40_attribute_decoder R124 for whatever `TRIG_DECODE` the instance has (D2): the mode is the one of code `(attr >> 1) & 0x3`; bit 0 and
bits 7:3 of the attr byte do not enter. -/
def Obligations.TriggerIsDecodedFromBitsTwoAndOne : Prop :=
  ∀ (s : State) (i : Nat),
    ((s.attr i).toNat / 2 % 4 = 0 → s.trigger i = s.trig.code0)
    ∧ ((s.attr i).toNat / 2 % 4 = 1 → s.trigger i = s.trig.code1)
    ∧ ((s.attr i).toNat / 2 % 4 = 2 → s.trigger i = s.trig.code2)
    ∧ ((s.attr i).toNat / 2 % 4 = 3 → s.trigger i = s.trig.code3)

/-- 40_attribute_decoder R125: `shv` is bit 0 of the attr byte, forwarded in the output triple, and excluded from the order. -/
def Obligations.ShvIsForwardedAndNotRanked : Prop :=
  ∀ s : State, (∀ i, s.shv i = (s.attr i).getLsbD 0)
    ∧ (∀ d, s.winner = some d → d.shv = s.shv d.id)
    ∧ (∀ (id : Nat) (b : Byte) (x y : Nat),
        (s.storeReg (.attr id) b).above x y = s.above x y)

/-- The law after 40_attribute_decoder R129: with the ctl byte fixed, a higher `nlbits` never gives a higher level. -/
def Obligations.RaisingNlbitsNeverRaisesALevel : Prop :=
  ∀ (s : State) (b : Byte) (i : Nat), s.levelBits ≤ 8 → s.nlbits ≤ ({ s with gc := b } : State).nlbits →
    ({ s with gc := b } : State).level i ≤ s.level i

/-- The law after 40_attribute_decoder R128: a write of the global config byte changes neither the members of the pending set nor their
order, so it cannot replace one source by another at the head. It holds for the decode with decision D11. -/
def Obligations.GlobalConfigWriteKeepsThePendingOrder : Prop :=
  ∀ (s t : State) (b : Byte), s.levelBits ≤ 8 → exec (.wrGcfg b) s = .next t →
    t.pendingList = s.pendingList ∧ t.head = s.head
      ∧ (∀ d, t.out = some d → s.head = some d.id)

/-! ### Pending set and dispatcher -/

/-- 43_pending_set_and_dispatch R190: a source is a member exactly if it is enabled and pending, and membership depends on nothing else. -/
def Obligations.MemberIsEnabledAndPending : Prop :=
  ∀ (s : State) (i : Nat), (s.member i = true ↔ s.ie i = true ∧ s.ip i = true)
    ∧ ∀ t : State, t.ie i = s.ie i → t.ip i = s.ip i → t.member i = s.member i

/-- 43_pending_set_and_dispatch R191: higher level, else higher priority, else lower id; nothing but level, priority and id enters. -/
def Obligations.AboveIsLevelThenPriorityThenId : Prop :=
  ∀ (s : State) (a b : Nat),
    (s.above a b = true ↔ (s.level b).toNat < (s.level a).toNat
      ∨ ((s.level a).toNat = (s.level b).toNat ∧ (s.priority b).toNat < (s.priority a).toNat)
      ∨ ((s.level a).toNat = (s.level b).toNat ∧ (s.priority a).toNat = (s.priority b).toNat ∧ a < b))
    ∧ ∀ t : State, t.level a = s.level a → t.level b = s.level b → t.priority a = s.priority a → t.priority b = s.priority b →
        t.above a b = s.above a b

/-- 43_pending_set_and_dispatch R192: `above` is a strict total order on source ids in every state. -/
def Obligations.AboveIsAStrictTotalOrder : Prop :=
  ∀ s : State, (∀ a, s.above a a = false)
    ∧ (∀ a b, a ≠ b → (s.above a b = true ∧ s.above b a = false) ∨ (s.above a b = false ∧ s.above b a = true))
    ∧ (∀ a b c, s.above a b = true → s.above b c = true → s.above a c = true)

/-- 43_pending_set_and_dispatch R192, R193: the pending list holds exactly the members, each once, each ranking above the next, and it is the
only such list. -/
def Obligations.PendingListIsTheMembersInOrder : Prop :=
  ∀ s : State, (∀ i, i ∈ s.pendingList ↔ i < s.numSources ∧ s.member i = true)
    ∧ s.pendingList.Pairwise (fun a b => s.above a b = true)
    ∧ s.pendingList.Nodup
    ∧ (∀ l : List Nat, (∀ i, i ∈ l ↔ i < s.numSources ∧ s.member i = true) →
        l.Pairwise (fun a b => s.above a b = true) → l = s.pendingList)

/-- 43_pending_set_and_dispatch R195: the head is the member that ranks above every other and has the greatest level; there is none exactly
when there is no member. -/
def Obligations.HeadRanksAboveEveryOtherMember : Prop :=
  ∀ s : State, (s.head = none ↔ ∀ i, i < s.numSources → s.member i = false)
    ∧ (∀ h, s.head = some h → h < s.numSources ∧ s.member h = true
        ∧ ∀ j, j < s.numSources → s.member j = true → j ≠ h → s.above h j = true ∧ s.level j ≤ s.level h)

/-- 43_pending_set_and_dispatch R196: the winner is the head if its level is at or above the threshold, else none; and when the head is below
the threshold every member is. -/
def Obligations.WinnerIsTheHeadAtOrAboveThreshold : Prop :=
  ∀ s : State, (s.head = none → s.winner = none)
    ∧ (∀ h, s.head = some h → s.mth ≤ s.level h → s.winner = some ⟨h, s.level h, s.shv h⟩)
    ∧ (∀ h, s.head = some h → s.level h < s.mth → s.winner = none
        ∧ ∀ j, j < s.numSources → s.member j = true → s.level j < s.mth)

/-- 43_pending_set_and_dispatch R198: the winner is what one linear scan of the source array finds, and it is the member that no other
member ranks above, provided it passes the threshold. -/
def Obligations.WinnerIsTheLinearScan : Prop :=
  ∀ s : State, s.winner = s.scanWinner
    ∧ (∀ d, s.winner = some d ↔ d.id < s.numSources ∧ s.member d.id = true
        ∧ (∀ j, j < s.numSources → s.member j = true → s.above j d.id = false)
        ∧ s.mth ≤ s.level d.id ∧ d.level = s.level d.id ∧ d.shv = s.shv d.id)

/-- 43_pending_set_and_dispatch R203: the test is "at or above"; at threshold 0 and at `nlbits == 0` every member passes; the threshold does
not enter the order and removes no source, so lowering it makes the head eligible again. -/
def Obligations.ThresholdTestIsAtOrAbove : Prop :=
  ∀ (s : State) (h : Nat), s.head = some h →
    (s.winner.isSome = true ↔ (s.mth).toNat ≤ (s.level h).toNat)
    ∧ (s.mth = 0 → ∀ i, s.mth ≤ s.level i)
    ∧ (s.nlbits = 0 → ∀ i, s.mth ≤ s.level i)
    ∧ (∀ m : Byte, ({ s with mth := m } : State).pendingList = s.pendingList)
    ∧ (∀ m : Byte, m ≤ s.level h → ∃ t, exec (.wrMth m) s = .next t ∧ t.out = some ⟨h, s.level h, s.shv h⟩)

/-- 43_pending_set_and_dispatch R200: the operations of the first list leave the winner of the new state delivered, and no other operation
changes the delivered value. -/
def Obligations.DispatcherRunsExactlyWhenListed : Prop :=
  ∀ (i : Instr) (s t : State), i.wellFormed s.numSources = true →
    (∀ rec, i = .restore rec → rec.src.length = s.numSources) → exec i s = .next t →
    (redispatches i = true → t.out = t.winner) ∧ (redispatches i = false → t.out = s.out)

/-- 00_scope R5, 30_encoding R92: the winner's id is a source of the instance and fits the `IDW` bits of the output. -/
def Obligations.DeliveredIdFitsTheOutput : Prop :=
  ∀ (s : State) (d : Delivery), s.winner = some d → d.id < s.numSources ∧ d.id < 2 ^ idWidth s.numSources

/-! ### Reset, snapshot, restore -/

/-- 70_reset_and_hazards R260, R262, R263 and 10_state R37: an accepted `RESET` creates a controller with the given parameters, every
register and line bit 0 (line bits: D24, log 17), an empty pending set and nothing delivered. Which operands are accepted rests on D12
and D15 (log 22). Four clauses are the model's choice and no rule: `TRIG_DECODE` is no operand of `RESET` and stays (log 5), the waiting
events stay (log 2), the count of draws is not cleared (log 7), nothing is returned (log 8). The two reserved source indices are ids of
the new instance (00_scope R5, D22); that they are chosen from `N` alone is the model's (log 18). -/
def Obligations.ResetCreatesAZeroedController : Prop :=
  ∀ (s : State) (p : ResetParams), p.numSources ≠ 0 → 0x1000 + 4 * p.numSources ≤ p.aperture → p.levelBits ≤ 8 →
    ∃ t, exec (.reset p) s = .next t
      ∧ t.base = p.base ∧ t.aperture = p.aperture ∧ t.numSources = p.numSources ∧ t.levelBits = p.levelBits ∧ t.cpu = p.cpu
      ∧ t.gc = 0 ∧ t.mth = 0
      ∧ (∀ i, i < p.numSources →
          t.ip i = false ∧ t.ie i = false ∧ t.attr i = 0 ∧ t.ctl i = 0 ∧ t.line i = false)
      ∧ t.pendingList = [] ∧ t.winner = none ∧ t.out = none ∧ t.reply = .nothing
      ∧ t.SrcValid ∧ t.trig = s.trig ∧ t.inputs = s.inputs ∧ t.draws = s.draws

/-- The derived values at reset (the table after 10_state R37). The trigger mode is read from the `TRIG_DECODE` of the state before, which
`RESET` leaves as it was: that is the model's choice (log 5). The priority at `nlbits == 0` rests on decision D11 (log 20). -/
def Obligations.DerivedStateAfterReset : Prop :=
  ∀ (s t : State) (p : ResetParams), exec (.reset p) s = .next t → ∀ i, i < p.numSources →
    t.nlbits = 0 ∧ t.pw = p.levelBits ∧ t.level i = 0xFF
      ∧ t.priority i = (if p.levelBits = 0 then 0 else (0xFF : Byte) >>> p.levelBits)
      ∧ t.enabled i = false ∧ t.trigger i = s.trig.code0 ∧ t.shv i = false ∧ t.member i = false

/-- 70_reset_and_hazards R260, 60_exceptions R231: a construction with no sources, too small an aperture (D15) or `L > 8` (D12) is rejected
with a configuration error, in that order, and with no other operands. That a rejection is a fault is log 9. -/
def Obligations.ResetRejectsInvalidConstruction : Prop :=
  ∀ (s : State) (p : ResetParams),
    (p.numSources = 0 → exec (.reset p) s = .fault (.configError .noSources))
    ∧ (p.numSources ≠ 0 → p.aperture < 0x1000 + 4 * p.numSources →
        exec (.reset p) s = .fault (.configError .apertureTooSmall))
    ∧ (p.numSources ≠ 0 → 0x1000 + 4 * p.numSources ≤ p.aperture → 8 < p.levelBits →
        exec (.reset p) s = .fault (.configError .tooManyLevelBits))
    ∧ ((∃ f, exec (.reset p) s = .fault f) ↔
        p.numSources = 0 ∨ p.aperture < 0x1000 + 4 * p.numSources ∨ 8 < p.levelBits)

/-- 10_state R37, 70_reset_and_hazards R262: the registers of `State.reset`. Its construction parameters are the model's choice among those
`RESET` accepts (log 4). -/
def Obligations.ResetStateIsZeroed : Prop :=
  State.reset.gc = 0 ∧ State.reset.mth = 0 ∧ State.reset.out = none ∧ State.reset.numSources = 32 ∧ State.reset.levelBits = 6
    ∧ ∀ i, i < 32 → State.reset.ip i = false ∧ State.reset.ie i = false ∧ State.reset.attr i = 0
        ∧ State.reset.ctl i = 0 ∧ State.reset.line i = false

/-- 44_snapshot_restore R210: `SNAPSHOT` returns the record of the two global registers and every source's four registers, ids ascending, and
changes nothing. -/
def Obligations.SnapshotReturnsTheRegisters : Prop :=
  ∀ s : State, ∃ rec : Record, exec .snapshot s = .next { s with reply := .record rec }
    ∧ rec.gc = s.gc ∧ rec.mth = s.mth ∧ rec.src.length = s.numSources
    ∧ ∀ (i : Nat) (h : i < rec.src.length), rec.src[i] = ⟨s.ip i, s.ie i, s.attr i, s.ctl i⟩

/-- 44_snapshot_restore R211: `RESTORE` of a record of the instance's size stores every value as given, keeps the line bits (D9) and the
construction parameters, and delivers the winner. -/
def Obligations.RestoreLoadsTheRecord : Prop :=
  ∀ (s : State) (rec : Record), rec.src.length = s.numSources → ∃ t, exec (.restore rec) s = .next t
    ∧ t.gc = rec.gc ∧ t.mth = rec.mth
    ∧ (∀ (i : Nat) (h : i < rec.src.length), t.source i = ⟨rec.src[i], s.line i⟩)
    ∧ SameParams s t ∧ t.inputs = s.inputs ∧ t.draws = s.draws ∧ t.out = t.winner ∧ t.reply = .nothing

/-- 44_snapshot_restore R212 (decision D19): a record of another size is rejected with a configuration error and the instance is unchanged.
That the rejection is a reply and the machine goes on is log 10. -/
def Obligations.RestoreOfAnotherSizeIsRejected : Prop :=
  ∀ (s : State) (rec : Record), rec.src.length ≠ s.numSources →
    exec (.restore rec) s = .next { s with reply := .rejected .recordSize }

/-- 44_snapshot_restore R213: restoring a snapshot into an instance of equal `N` and `L` (the same one after any change, or a fresh one) gives
the pending list and the winner of the state it was taken from; with equal `TRIG_DECODE` it gives all its decoded attributes. -/
def Obligations.SnapshotRestoreRoundTrip : Prop :=
  ∀ (s a u : State) (rec : Record), exec .snapshot s = .next a → a.reply = .record rec →
    u.numSources = s.numSources → u.levelBits = s.levelBits →
    ∃ v, exec (.restore rec) u = .next v ∧ v.pendingList = s.pendingList ∧ v.winner = s.winner ∧ v.out = s.winner
      ∧ v.record = rec ∧ (u.trig = s.trig → ∀ i, v.attributes i = s.attributes i)

/-- 44_snapshot_restore R214, 70_reset_and_hazards R278 (decision D9): after a restore into a fresh instance every line bit is 0, so a
`LINE i 1` on a rising-edge source counts as an edge whatever the line was when the snapshot was taken. -/
def Obligations.RestoreIntoFreshInstanceForgetsTheLines : Prop :=
  ∀ (s f : State) (p : ResetParams) (rec : Record), exec (.reset p) s = .next f → rec.src.length = p.numSources →
    ∃ u, exec (.restore rec) f = .next u ∧ (∀ i, i < p.numSources → u.line i = false)
      ∧ ∀ i, i < p.numSources → u.trigger i = .risingEdge → ∃ v, exec (.lineAssert i) u = .next v ∧ v.ip i = true

/-! ### The whole machine -/

/-- Every step from a state with valid parameters, reserved source indices among its ids and a current output gives such a state again
(10_state R33, R38 (a) and (d), 43_pending_set_and_dispatch R202, 70_reset_and_hazards R260, 00_scope R5). The bounds of the parameters
rest on D12 and D15 (log 22), the reserved indices of an instance `RESET` creates on log 18. -/
def Obligations.EveryStepKeepsTheInvariant : Prop :=
  ∀ s t : State, s.Inv → step s = .next t → t.Inv

/-- The invariant holds right after reset. It rests on the parameters the model chose for `State.reset` (log 4) and on its reserved source
indices (log 18). -/
def Obligations.InvariantHoldsAtReset : Prop := State.reset.Inv

/-- 60_exceptions R230: at run time nothing is raised. Every operation but `RESET` completes, and none but `RESTORE` shows an error
indication. Two parts are the model's reading and not R230's: that a `RESTORE` of a record of another size goes on in the unchanged
instance with the rejection as its reply (log 10), and that operations on ids outside `[0, N)` complete (log 11). -/
def Obligations.NothingIsRaisedAtRunTime : Prop :=
  ∀ (i : Instr) (s : State), (∀ p, i ≠ .reset p) →
    ∃ t, exec i s = .next t ∧ ((∀ rec, i ≠ .restore rec) → ∀ e, t.reply ≠ .rejected e)

/-- 10_state R38 (a), 00_scope R5, 41_mmio_operations R142: no operation but `RESET` changes the number of sources, another construction
parameter, `TRIG_DECODE` or the info word. -/
def Obligations.ParametersAreFixedBetweenResets : Prop :=
  ∀ (i : Instr) (s t : State), (∀ p, i ≠ .reset p) → exec i s = .next t → SameParams s t ∧ t.info = s.info

/-- 10_state R21, R23, R25 to R29: which operations write which register. `RESET` and `RESTORE` apart, `gc`, `mth`, `ie[j]`, `attr[j]` and
`ctl[j]` are written by their own write operation alone, `ip[j]` also by line events and `ACK` on `j`, and `line[j]` by line events on `j`
alone (`RESTORE` does not write it: D9). -/
def Obligations.EachRegisterHasItsWriters : Prop :=
  ∀ (i : Instr) (s t : State) (j : Nat), (∀ p, i ≠ .reset p) → exec i s = .next t →
    (i ≠ .lineAssert j → i ≠ .lineDeassert j → t.line j = s.line j)
    ∧ ((∀ rec, i ≠ .restore rec) →
        ((∀ b, i ≠ .wrGcfg b) → t.gc = s.gc)
        ∧ ((∀ b, i ≠ .wrMth b) → t.mth = s.mth)
        ∧ ((∀ b, i ≠ .wrIe j b) → t.ie j = s.ie j)
        ∧ ((∀ b, i ≠ .wrAttr j b) → t.attr j = s.attr j)
        ∧ ((∀ b, i ≠ .wrCtl j b) → t.ctl j = s.ctl j)
        ∧ ((∀ b, i ≠ .wrIp j b) → i ≠ .lineAssert j → i ≠ .lineDeassert j → i ≠ .ack j → t.ip j = s.ip j))

/-- The paragraph after U24 of 93_implementation_defined: when no source is in `Reserved` mode no free value is taken, so the outcome does not
depend on the count of draws (log 7). -/
def Obligations.NoFreeValueIsTakenWithoutReservedSources : Prop :=
  ∀ (i : Instr) (s t : State) (d : Nat), s.NoReserved → exec i s = .next t →
    t.draws = s.draws ∧ exec i { s with draws := d } = .next { t with draws := d }

/-- 10_state R29 (decision D9): the hidden line bits show in no read, not in the winner or the pending list, and not in a snapshot record. -/
def Obligations.LineBitsAreHidden : Prop :=
  ∀ s t : State, t = { s with src := t.src } → t.src.map (·.raw) = s.src.map (·.raw) →
    (∀ off n, t.memRead off n = s.memRead off n) ∧ t.winner = s.winner ∧ t.pendingList = s.pendingList ∧ t.record = s.record
end

