-- ==== Sys2Proof/Laws/Decode.lean ====
section
/-! SUPPORT. The small facts of the frames' bytes, and the offset decoder against the table of supported accesses. -/

namespace Sys2Proof

@[simp] theorem length_bytesLE (k x : Nat) : (bytesLE k x).length = k := by
  induction k generalizing x with
  | zero => rfl
  | succ k ih => simp [bytesLE, ih]

/-- Writing `k` bytes and reading them back keeps the low `8 * k` bits. -/
theorem ofBytesLE_bytesLE (k x : Nat) : ofBytesLE (bytesLE k x) = x % 256 ^ k := by
  induction k generalizing x with
  | zero => simp [bytesLE, ofBytesLE, Nat.mod_one]
  | succ k ih =>
    simp only [bytesLE, ofBytesLE, ih, BitVec.toNat_ofNat]
    show x % 256 + 256 * (x / 256 % 256 ^ k) = x % 256 ^ (k + 1)
    rw [Nat.pow_succ, Nat.mul_comm (256 ^ k) 256, Nat.mod_mul]

theorem ofBytesLE_bytesLE_of_lt {k x : Nat} (h : x < 256 ^ k) : ofBytesLE (bytesLE k x) = x := by
  rw [ofBytesLE_bytesLE, Nat.mod_eq_of_lt h]

/-- The bytes of a number of any size read back, whatever follows them, if there was room for them. -/
theorem takeNumber_numberBytes (k x : Nat) (rest : List Byte) (h : x < 128 ^ (k + 1)) :
    takeNumber (numberBytes k x ++ rest) = some (x, rest) := by
  induction k generalizing x with
  | zero =>
    have hx : x < 128 := by simpa using h
    simp [numberBytes, takeNumber, Nat.mod_eq_of_lt hx, Nat.mod_eq_of_lt (show x < 256 by omega), hx]
  | succ k ih =>
    unfold numberBytes
    by_cases hx : x < 128
    · simp [hx, takeNumber, Nat.mod_eq_of_lt (show x < 256 by omega)]
    · have hb : (x % 128 + 128) % 256 = x % 128 + 128 := by omega
      have hd : x / 128 < 128 ^ (k + 1) := by
        rw [Nat.div_lt_iff_lt_mul (by decide)]
        simpa [Nat.pow_succ] using h
      simp only [if_neg hx, List.cons_append, takeNumber, ih _ hd, BitVec.toNat_ofNat]
      simp only [show (2 : Nat) ^ 8 = 256 from rfl, hb]
      rw [if_neg (by omega)]
      simp only [Option.some.injEq, Prod.mk.injEq, and_true]
      omega

/-- Every number's bytes read back, whatever follows them. -/
@[simp] theorem takeNumber_encodeNumber (x : Nat) (rest : List Byte) :
    takeNumber (encodeNumber x ++ rest) = some (x, rest) := by
  apply takeNumber_numberBytes
  calc x < 2 ^ (x.log2 + 1) := Nat.lt_log2_self
    _ ≤ 128 ^ (x.log2 + 1) := Nat.pow_le_pow_left (by decide) _

/-- The operands of a `RESET` read back. -/
theorem takeResetParams_encode (p : ResetParams) :
    takeResetParams p.numSources
      (encodeNumber p.base ++ encodeNumber p.aperture ++ encodeNumber p.levelBits ++ encodeNumber p.cpu) = some p := by
  have last := takeNumber_encodeNumber p.cpu []
  rw [List.append_nil] at last
  simp [takeResetParams, List.append_assoc, last]

/-- A frame's header decodes to its selector, however large, and its port. -/
theorem decode_header (N sel : Nat) (port : Byte) (body : List Byte) :
    decode N (header sel port ++ body) = decodeBody N sel port body := by
  have low := ofBytesLE_bytesLE 4 sel
  simp only [bytesLE] at low
  simp only [header, bytesLE, List.cons_append, List.nil_append, decode, takeNumber_encodeNumber, low]
  rw [show (256 : Nat) ^ 4 = 2 ^ 32 from rfl, Nat.mod_add_div]

@[simp] theorem widthOfCode_code (n : Width) : widthOfCode n.code = some n := by cases n <;> rfl

@[simp] theorem bitOfByte_byteOfBit (b : Bool) : bitOfByte (byteOfBit b) = some b := by cases b <;> rfl

/-- 20_memory R62: the offset decoder finds a register exactly for the supported accesses. -/
theorem regAt_isSome (N off : Nat) (n : Width) : (regAt N off n).isSome = supportedAccess N off n := by
  cases n with
  | one =>
    unfold regAt supportedAccess
    by_cases h0 : off = 0
    · simp [h0]
    · by_cases hB : off = 0xB
      · simp [hB]
      · by_cases hr : 0x1000 ≤ off ∧ off < 0x1000 + 4 * N
        · simp [h0, hB, hr]
        · simp only [h0, hB, hr, if_false]
          simp [h0, hB]
          omega
  | two => simp [regAt, supportedAccess]
  | four =>
    unfold regAt supportedAccess
    by_cases h : off = 4 <;> simp [h]
  | eight => simp [regAt, supportedAccess]

/-- In the per-source range the offset decoder answers with the source's register. -/
theorem regAt_of_range (N off : Nat) (h : 0x1000 ≤ off) (h' : off < 0x1000 + 4 * N) :
    regAt N off .one = some (sourceRegAt off) := by
  unfold regAt
  simp only []
  rw [if_neg (by omega), if_neg (by omega), if_pos ⟨h, h'⟩]

/-! The four offsets of a source select its four registers (30_encoding R102). -/

theorem sourceRegAt_ip (id : Nat) : sourceRegAt (0x1000 + 4 * id + 0) = .ip id := by
  unfold sourceRegAt
  rw [show (0x1000 + 4 * id + 0 - 0x1000) % 4 = 0 by omega, show (0x1000 + 4 * id + 0 - 0x1000) / 4 = id by omega]
  rfl

theorem sourceRegAt_ie (id : Nat) : sourceRegAt (0x1000 + 4 * id + 1) = .ie id := by
  unfold sourceRegAt
  rw [show (0x1000 + 4 * id + 1 - 0x1000) % 4 = 1 by omega, show (0x1000 + 4 * id + 1 - 0x1000) / 4 = id by omega]
  rfl

theorem sourceRegAt_attr (id : Nat) : sourceRegAt (0x1000 + 4 * id + 2) = .attr id := by
  unfold sourceRegAt
  rw [show (0x1000 + 4 * id + 2 - 0x1000) % 4 = 2 by omega, show (0x1000 + 4 * id + 2 - 0x1000) / 4 = id by omega]
  rfl

theorem sourceRegAt_ctl (id : Nat) : sourceRegAt (0x1000 + 4 * id + 3) = .ctl id := by
  unfold sourceRegAt
  rw [show (0x1000 + 4 * id + 3 - 0x1000) % 4 = 3 by omega, show (0x1000 + 4 * id + 3 - 0x1000) / 4 = id by omega]
  rfl

/-- A read frame selects what the offset decoder says. -/
theorem decode_readFrame (N off : Nat) (n : Width) :
    decode N (readFrame off n) = .ok (readAt N off n) := by
  rw [readFrame, decode_header]
  simp [decodeBody, decodeReadBody]

/-- A write frame selects what the offset decoder says. -/
theorem decode_writeFrame (N off : Nat) (n : Width) (data : Nat) (hd : data < 256 ^ n.bytes) :
    decode N (writeFrame off n data) = .ok (writeAt N off n (BitVec.ofNat 64 data)) := by
  rw [writeFrame, decode_header]
  simp [decodeBody, decodeWriteBody, ofBytesLE_bytesLE_of_lt hd]

/-- The entries of a `RESTORE` frame read back. -/
theorem decodeSources_encodeSource (l : List SourceRaw) : decodeSources (l.flatMap encodeSource) = .ok l := by
  induction l with
  | nil => rfl
  | cons a l ih => simp [encodeSource, decodeSources, ih]

end Sys2Proof
end

