-- ==== Sys2Proof/Laws/State.lean ====
section
/-! SUPPORT. One lemma per field per update of the state, and the per-source view of the updates of `src`. -/

namespace Sys2Proof.Machine

/-! ### The reserved source indices of an instance (00_scope R5, D22) -/

theorem srcSoft_lt (N : Nat) (h : N ≠ 0) : Config.srcSoft N < N :=
  Nat.mod_lt _ (Nat.pos_of_ne_zero h)

theorem srcTimer_lt (N : Nat) (h : N ≠ 0) : Config.srcTimer N < N :=
  Nat.mod_lt _ (Nat.pos_of_ne_zero h)

theorem srcSoft_ne_srcTimer (N : Nat) (h : 2 ≤ N) : Config.srcSoft N ≠ Config.srcTimer N := by
  have hs := srcSoft_lt N (by omega)
  have hk : Config.srcTimerPick N % (N - 1) < N - 1 := Nat.mod_lt _ (by omega)
  unfold Config.srcTimer
  generalize Config.srcSoft N = a at *
  generalize Config.srcTimerPick N % (N - 1) = k at *
  by_cases hw : a + 1 + k < N
  · rw [Nat.mod_eq_of_lt hw]
    omega
  · rw [Nat.mod_eq_sub_mod (by omega), Nat.mod_eq_of_lt (by omega)]
    omega

/-! ### `redispatch` -/

@[simp] theorem State.redispatch_base (s : State) : (s.redispatch).base = s.base := rfl
@[simp] theorem State.redispatch_aperture (s : State) : (s.redispatch).aperture = s.aperture := rfl
@[simp] theorem State.redispatch_levelBits (s : State) : (s.redispatch).levelBits = s.levelBits := rfl
@[simp] theorem State.redispatch_cpu (s : State) : (s.redispatch).cpu = s.cpu := rfl
@[simp] theorem State.redispatch_trig (s : State) : (s.redispatch).trig = s.trig := rfl
@[simp] theorem State.redispatch_srcSoft (s : State) : (s.redispatch).srcSoft = s.srcSoft := rfl
@[simp] theorem State.redispatch_srcTimer (s : State) : (s.redispatch).srcTimer = s.srcTimer := rfl
@[simp] theorem State.redispatch_gc (s : State) : (s.redispatch).gc = s.gc := rfl
@[simp] theorem State.redispatch_mth (s : State) : (s.redispatch).mth = s.mth := rfl
@[simp] theorem State.redispatch_src (s : State) : (s.redispatch).src = s.src := rfl
@[simp] theorem State.redispatch_out (s : State) : (s.redispatch).out = s.winner := rfl
@[simp] theorem State.redispatch_reply (s : State) : (s.redispatch).reply = s.reply := rfl
@[simp] theorem State.redispatch_inputs (s : State) : (s.redispatch).inputs = s.inputs := rfl
@[simp] theorem State.redispatch_draws (s : State) : (s.redispatch).draws = s.draws := rfl

/-! ### `modifySource` -/

@[simp] theorem State.modifySource_base (s : State) (id : Nat) (f : Source → Source) : (s.modifySource id f).base = s.base := rfl
@[simp] theorem State.modifySource_aperture (s : State) (id : Nat) (f : Source → Source) : (s.modifySource id f).aperture = s.aperture := rfl
@[simp] theorem State.modifySource_levelBits (s : State) (id : Nat) (f : Source → Source) : (s.modifySource id f).levelBits = s.levelBits := rfl
@[simp] theorem State.modifySource_cpu (s : State) (id : Nat) (f : Source → Source) : (s.modifySource id f).cpu = s.cpu := rfl
@[simp] theorem State.modifySource_trig (s : State) (id : Nat) (f : Source → Source) : (s.modifySource id f).trig = s.trig := rfl
@[simp] theorem State.modifySource_srcSoft (s : State) (id : Nat) (f : Source → Source) : (s.modifySource id f).srcSoft = s.srcSoft := rfl
@[simp] theorem State.modifySource_srcTimer (s : State) (id : Nat) (f : Source → Source) : (s.modifySource id f).srcTimer = s.srcTimer := rfl
@[simp] theorem State.modifySource_gc (s : State) (id : Nat) (f : Source → Source) : (s.modifySource id f).gc = s.gc := rfl
@[simp] theorem State.modifySource_mth (s : State) (id : Nat) (f : Source → Source) : (s.modifySource id f).mth = s.mth := rfl
@[simp] theorem State.modifySource_src (s : State) (id : Nat) (f : Source → Source) : (s.modifySource id f).src = s.src.modify id f := rfl
@[simp] theorem State.modifySource_out (s : State) (id : Nat) (f : Source → Source) : (s.modifySource id f).out = s.out := rfl
@[simp] theorem State.modifySource_reply (s : State) (id : Nat) (f : Source → Source) : (s.modifySource id f).reply = s.reply := rfl
@[simp] theorem State.modifySource_inputs (s : State) (id : Nat) (f : Source → Source) : (s.modifySource id f).inputs = s.inputs := rfl
@[simp] theorem State.modifySource_draws (s : State) (id : Nat) (f : Source → Source) : (s.modifySource id f).draws = s.draws := rfl

/-! ### `modifyRaw` -/

@[simp] theorem State.modifyRaw_base (s : State) (id : Nat) (f : SourceRaw → SourceRaw) : (s.modifyRaw id f).base = s.base := rfl
@[simp] theorem State.modifyRaw_aperture (s : State) (id : Nat) (f : SourceRaw → SourceRaw) : (s.modifyRaw id f).aperture = s.aperture := rfl
@[simp] theorem State.modifyRaw_levelBits (s : State) (id : Nat) (f : SourceRaw → SourceRaw) : (s.modifyRaw id f).levelBits = s.levelBits := rfl
@[simp] theorem State.modifyRaw_cpu (s : State) (id : Nat) (f : SourceRaw → SourceRaw) : (s.modifyRaw id f).cpu = s.cpu := rfl
@[simp] theorem State.modifyRaw_trig (s : State) (id : Nat) (f : SourceRaw → SourceRaw) : (s.modifyRaw id f).trig = s.trig := rfl
@[simp] theorem State.modifyRaw_srcSoft (s : State) (id : Nat) (f : SourceRaw → SourceRaw) : (s.modifyRaw id f).srcSoft = s.srcSoft := rfl
@[simp] theorem State.modifyRaw_srcTimer (s : State) (id : Nat) (f : SourceRaw → SourceRaw) : (s.modifyRaw id f).srcTimer = s.srcTimer := rfl
@[simp] theorem State.modifyRaw_gc (s : State) (id : Nat) (f : SourceRaw → SourceRaw) : (s.modifyRaw id f).gc = s.gc := rfl
@[simp] theorem State.modifyRaw_mth (s : State) (id : Nat) (f : SourceRaw → SourceRaw) : (s.modifyRaw id f).mth = s.mth := rfl
@[simp] theorem State.modifyRaw_out (s : State) (id : Nat) (f : SourceRaw → SourceRaw) : (s.modifyRaw id f).out = s.out := rfl
@[simp] theorem State.modifyRaw_reply (s : State) (id : Nat) (f : SourceRaw → SourceRaw) : (s.modifyRaw id f).reply = s.reply := rfl
@[simp] theorem State.modifyRaw_inputs (s : State) (id : Nat) (f : SourceRaw → SourceRaw) : (s.modifyRaw id f).inputs = s.inputs := rfl
@[simp] theorem State.modifyRaw_draws (s : State) (id : Nat) (f : SourceRaw → SourceRaw) : (s.modifyRaw id f).draws = s.draws := rfl

/-! ### `countDraw` -/

@[simp] theorem State.countDraw_base (s : State) (id : Nat) : (s.countDraw id).base = s.base := rfl
@[simp] theorem State.countDraw_aperture (s : State) (id : Nat) : (s.countDraw id).aperture = s.aperture := rfl
@[simp] theorem State.countDraw_levelBits (s : State) (id : Nat) : (s.countDraw id).levelBits = s.levelBits := rfl
@[simp] theorem State.countDraw_cpu (s : State) (id : Nat) : (s.countDraw id).cpu = s.cpu := rfl
@[simp] theorem State.countDraw_trig (s : State) (id : Nat) : (s.countDraw id).trig = s.trig := rfl
@[simp] theorem State.countDraw_srcSoft (s : State) (id : Nat) : (s.countDraw id).srcSoft = s.srcSoft := rfl
@[simp] theorem State.countDraw_srcTimer (s : State) (id : Nat) : (s.countDraw id).srcTimer = s.srcTimer := rfl
@[simp] theorem State.countDraw_gc (s : State) (id : Nat) : (s.countDraw id).gc = s.gc := rfl
@[simp] theorem State.countDraw_mth (s : State) (id : Nat) : (s.countDraw id).mth = s.mth := rfl
@[simp] theorem State.countDraw_src (s : State) (id : Nat) : (s.countDraw id).src = s.src := rfl
@[simp] theorem State.countDraw_out (s : State) (id : Nat) : (s.countDraw id).out = s.out := rfl
@[simp] theorem State.countDraw_reply (s : State) (id : Nat) : (s.countDraw id).reply = s.reply := rfl
@[simp] theorem State.countDraw_inputs (s : State) (id : Nat) : (s.countDraw id).inputs = s.inputs := rfl
@[simp] theorem State.countDraw_draws (s : State) (id : Nat) : (s.countDraw id).draws = if s.reserved id then s.draws + 1 else s.draws := rfl

/-! ### `loadRecord` -/

@[simp] theorem State.loadRecord_base (s : State) (rec : Record) : (s.loadRecord rec).base = s.base := rfl
@[simp] theorem State.loadRecord_aperture (s : State) (rec : Record) : (s.loadRecord rec).aperture = s.aperture := rfl
@[simp] theorem State.loadRecord_levelBits (s : State) (rec : Record) : (s.loadRecord rec).levelBits = s.levelBits := rfl
@[simp] theorem State.loadRecord_cpu (s : State) (rec : Record) : (s.loadRecord rec).cpu = s.cpu := rfl
@[simp] theorem State.loadRecord_trig (s : State) (rec : Record) : (s.loadRecord rec).trig = s.trig := rfl
@[simp] theorem State.loadRecord_srcSoft (s : State) (rec : Record) : (s.loadRecord rec).srcSoft = s.srcSoft := rfl
@[simp] theorem State.loadRecord_srcTimer (s : State) (rec : Record) : (s.loadRecord rec).srcTimer = s.srcTimer := rfl
@[simp] theorem State.loadRecord_gc (s : State) (rec : Record) : (s.loadRecord rec).gc = rec.gc := rfl
@[simp] theorem State.loadRecord_mth (s : State) (rec : Record) : (s.loadRecord rec).mth = rec.mth := rfl
@[simp] theorem State.loadRecord_out (s : State) (rec : Record) : (s.loadRecord rec).out = s.out := rfl
@[simp] theorem State.loadRecord_reply (s : State) (rec : Record) : (s.loadRecord rec).reply = s.reply := rfl
@[simp] theorem State.loadRecord_inputs (s : State) (rec : Record) : (s.loadRecord rec).inputs = s.inputs := rfl
@[simp] theorem State.loadRecord_draws (s : State) (rec : Record) : (s.loadRecord rec).draws = s.draws := rfl

/-! ### `construct` -/

@[simp] theorem State.construct_base (s : State) (p : ResetParams) : (s.construct p).base = p.base := rfl
@[simp] theorem State.construct_aperture (s : State) (p : ResetParams) : (s.construct p).aperture = p.aperture := rfl
@[simp] theorem State.construct_levelBits (s : State) (p : ResetParams) : (s.construct p).levelBits = p.levelBits := rfl
@[simp] theorem State.construct_cpu (s : State) (p : ResetParams) : (s.construct p).cpu = p.cpu := rfl
@[simp] theorem State.construct_trig (s : State) (p : ResetParams) : (s.construct p).trig = s.trig := rfl
@[simp] theorem State.construct_srcSoft (s : State) (p : ResetParams) : (s.construct p).srcSoft = Config.srcSoft p.numSources := rfl
@[simp] theorem State.construct_srcTimer (s : State) (p : ResetParams) : (s.construct p).srcTimer = Config.srcTimer p.numSources := rfl
@[simp] theorem State.construct_gc (s : State) (p : ResetParams) : (s.construct p).gc = 0 := rfl
@[simp] theorem State.construct_mth (s : State) (p : ResetParams) : (s.construct p).mth = 0 := rfl
@[simp] theorem State.construct_src (s : State) (p : ResetParams) : (s.construct p).src = List.replicate p.numSources Source.zero := rfl
@[simp] theorem State.construct_out (s : State) (p : ResetParams) : (s.construct p).out = none := rfl
@[simp] theorem State.construct_reply (s : State) (p : ResetParams) : (s.construct p).reply = Reply.nothing := rfl
@[simp] theorem State.construct_inputs (s : State) (p : ResetParams) : (s.construct p).inputs = s.inputs := rfl
@[simp] theorem State.construct_draws (s : State) (p : ResetParams) : (s.construct p).draws = s.draws := rfl

/-! ### `withFrame` -/

@[simp] theorem State.withFrame_base (s : State) (frame : List Byte) : (s.withFrame frame).base = s.base := rfl
@[simp] theorem State.withFrame_aperture (s : State) (frame : List Byte) : (s.withFrame frame).aperture = s.aperture := rfl
@[simp] theorem State.withFrame_levelBits (s : State) (frame : List Byte) : (s.withFrame frame).levelBits = s.levelBits := rfl
@[simp] theorem State.withFrame_cpu (s : State) (frame : List Byte) : (s.withFrame frame).cpu = s.cpu := rfl
@[simp] theorem State.withFrame_trig (s : State) (frame : List Byte) : (s.withFrame frame).trig = s.trig := rfl
@[simp] theorem State.withFrame_srcSoft (s : State) (frame : List Byte) : (s.withFrame frame).srcSoft = s.srcSoft := rfl
@[simp] theorem State.withFrame_srcTimer (s : State) (frame : List Byte) : (s.withFrame frame).srcTimer = s.srcTimer := rfl
@[simp] theorem State.withFrame_gc (s : State) (frame : List Byte) : (s.withFrame frame).gc = s.gc := rfl
@[simp] theorem State.withFrame_mth (s : State) (frame : List Byte) : (s.withFrame frame).mth = s.mth := rfl
@[simp] theorem State.withFrame_src (s : State) (frame : List Byte) : (s.withFrame frame).src = s.src := rfl
@[simp] theorem State.withFrame_out (s : State) (frame : List Byte) : (s.withFrame frame).out = s.out := rfl
@[simp] theorem State.withFrame_reply (s : State) (frame : List Byte) : (s.withFrame frame).reply = s.reply := rfl
@[simp] theorem State.withFrame_inputs (s : State) (frame : List Byte) : (s.withFrame frame).inputs = frame :: s.inputs := rfl
@[simp] theorem State.withFrame_draws (s : State) (frame : List Byte) : (s.withFrame frame).draws = s.draws := rfl

/-! ### `withReply` -/

@[simp] theorem State.withReply_base (s : State) (r : Reply) : (s.withReply r).base = s.base := rfl
@[simp] theorem State.withReply_aperture (s : State) (r : Reply) : (s.withReply r).aperture = s.aperture := rfl
@[simp] theorem State.withReply_levelBits (s : State) (r : Reply) : (s.withReply r).levelBits = s.levelBits := rfl
@[simp] theorem State.withReply_cpu (s : State) (r : Reply) : (s.withReply r).cpu = s.cpu := rfl
@[simp] theorem State.withReply_trig (s : State) (r : Reply) : (s.withReply r).trig = s.trig := rfl
@[simp] theorem State.withReply_srcSoft (s : State) (r : Reply) : (s.withReply r).srcSoft = s.srcSoft := rfl
@[simp] theorem State.withReply_srcTimer (s : State) (r : Reply) : (s.withReply r).srcTimer = s.srcTimer := rfl
@[simp] theorem State.withReply_gc (s : State) (r : Reply) : (s.withReply r).gc = s.gc := rfl
@[simp] theorem State.withReply_mth (s : State) (r : Reply) : (s.withReply r).mth = s.mth := rfl
@[simp] theorem State.withReply_src (s : State) (r : Reply) : (s.withReply r).src = s.src := rfl
@[simp] theorem State.withReply_out (s : State) (r : Reply) : (s.withReply r).out = s.out := rfl
@[simp] theorem State.withReply_reply (s : State) (r : Reply) : (s.withReply r).reply = r := rfl
@[simp] theorem State.withReply_inputs (s : State) (r : Reply) : (s.withReply r).inputs = s.inputs := rfl
@[simp] theorem State.withReply_draws (s : State) (r : Reply) : (s.withReply r).draws = s.draws := rfl
@[simp] theorem State.numSources_withReply (s : State) (r : Reply) : (s.withReply r).numSources = s.numSources := rfl
@[simp] theorem State.source_withReply (s : State) (r : Reply) (i : Nat) : (s.withReply r).source i = s.source i := rfl
@[simp] theorem State.winner_withReply (s : State) (r : Reply) : (s.withReply r).winner = s.winner := rfl

/-! ### `withInputs` -/

@[simp] theorem State.withInputs_base (s : State) (l : List (List Byte)) : (s.withInputs l).base = s.base := rfl
@[simp] theorem State.withInputs_aperture (s : State) (l : List (List Byte)) : (s.withInputs l).aperture = s.aperture := rfl
@[simp] theorem State.withInputs_levelBits (s : State) (l : List (List Byte)) : (s.withInputs l).levelBits = s.levelBits := rfl
@[simp] theorem State.withInputs_cpu (s : State) (l : List (List Byte)) : (s.withInputs l).cpu = s.cpu := rfl
@[simp] theorem State.withInputs_trig (s : State) (l : List (List Byte)) : (s.withInputs l).trig = s.trig := rfl
@[simp] theorem State.withInputs_srcSoft (s : State) (l : List (List Byte)) : (s.withInputs l).srcSoft = s.srcSoft := rfl
@[simp] theorem State.withInputs_srcTimer (s : State) (l : List (List Byte)) : (s.withInputs l).srcTimer = s.srcTimer := rfl
@[simp] theorem State.withInputs_gc (s : State) (l : List (List Byte)) : (s.withInputs l).gc = s.gc := rfl
@[simp] theorem State.withInputs_mth (s : State) (l : List (List Byte)) : (s.withInputs l).mth = s.mth := rfl
@[simp] theorem State.withInputs_src (s : State) (l : List (List Byte)) : (s.withInputs l).src = s.src := rfl
@[simp] theorem State.withInputs_out (s : State) (l : List (List Byte)) : (s.withInputs l).out = s.out := rfl
@[simp] theorem State.withInputs_reply (s : State) (l : List (List Byte)) : (s.withInputs l).reply = s.reply := rfl
@[simp] theorem State.withInputs_inputs (s : State) (l : List (List Byte)) : (s.withInputs l).inputs = l := rfl
@[simp] theorem State.withInputs_draws (s : State) (l : List (List Byte)) : (s.withInputs l).draws = s.draws := rfl
@[simp] theorem State.numSources_withInputs (s : State) (l : List (List Byte)) : (s.withInputs l).numSources = s.numSources := rfl
@[simp] theorem State.source_withInputs (s : State) (l : List (List Byte)) (i : Nat) : (s.withInputs l).source i = s.source i := rfl
@[simp] theorem State.winner_withInputs (s : State) (l : List (List Byte)) : (s.withInputs l).winner = s.winner := rfl

/-! ### `storeReg`: what each register's store leaves unchanged -/

@[simp] theorem State.storeReg_base (s : State) (r : Reg) (b : Byte) : (s.storeReg r b).base = s.base := by cases r <;> rfl
@[simp] theorem State.storeReg_aperture (s : State) (r : Reg) (b : Byte) : (s.storeReg r b).aperture = s.aperture := by cases r <;> rfl
@[simp] theorem State.storeReg_levelBits (s : State) (r : Reg) (b : Byte) : (s.storeReg r b).levelBits = s.levelBits := by cases r <;> rfl
@[simp] theorem State.storeReg_cpu (s : State) (r : Reg) (b : Byte) : (s.storeReg r b).cpu = s.cpu := by cases r <;> rfl
@[simp] theorem State.storeReg_trig (s : State) (r : Reg) (b : Byte) : (s.storeReg r b).trig = s.trig := by cases r <;> rfl
@[simp] theorem State.storeReg_srcSoft (s : State) (r : Reg) (b : Byte) : (s.storeReg r b).srcSoft = s.srcSoft := by cases r <;> rfl
@[simp] theorem State.storeReg_srcTimer (s : State) (r : Reg) (b : Byte) : (s.storeReg r b).srcTimer = s.srcTimer := by cases r <;> rfl
@[simp] theorem State.storeReg_out (s : State) (r : Reg) (b : Byte) : (s.storeReg r b).out = s.out := by cases r <;> rfl
@[simp] theorem State.storeReg_reply (s : State) (r : Reg) (b : Byte) : (s.storeReg r b).reply = s.reply := by cases r <;> rfl
@[simp] theorem State.storeReg_inputs (s : State) (r : Reg) (b : Byte) : (s.storeReg r b).inputs = s.inputs := by cases r <;> rfl
@[simp] theorem State.storeReg_draws (s : State) (r : Reg) (b : Byte) : (s.storeReg r b).draws = s.draws := by cases r <;> rfl

/-! ### The number of sources -/

@[simp] theorem State.numSources_redispatch (s : State) : s.redispatch.numSources = s.numSources := rfl
@[simp] theorem State.numSources_countDraw (s : State) (id : Nat) : (s.countDraw id).numSources = s.numSources := rfl
@[simp] theorem State.numSources_withFrame (s : State) (frame : List Byte) : (s.withFrame frame).numSources = s.numSources := rfl

@[simp] theorem State.numSources_modifySource (s : State) (id : Nat) (f : Source → Source) :
    (s.modifySource id f).numSources = s.numSources := by
  simp [State.numSources]

@[simp] theorem State.numSources_modifyRaw (s : State) (id : Nat) (f : SourceRaw → SourceRaw) :
    (s.modifyRaw id f).numSources = s.numSources :=
  State.numSources_modifySource s id _

@[simp] theorem State.numSources_storeReg (s : State) (r : Reg) (b : Byte) :
    (s.storeReg r b).numSources = s.numSources := by
  cases r <;> first | rfl | exact State.numSources_modifyRaw s _ _

@[simp] theorem State.numSources_construct (s : State) (p : ResetParams) :
    (s.construct p).numSources = p.numSources := by
  simp [State.numSources]

theorem State.numSources_loadRecord (s : State) (rec : Record) (h : rec.src.length = s.numSources) :
    (s.loadRecord rec).numSources = s.numSources := by
  simp only [State.numSources] at h ⊢
  simp [State.loadRecord, h]

/-! ### One source -/

@[simp] theorem State.source_redispatch (s : State) (i : Nat) : s.redispatch.source i = s.source i := rfl
@[simp] theorem State.source_countDraw (s : State) (id i : Nat) : (s.countDraw id).source i = s.source i := rfl
@[simp] theorem State.source_withFrame (s : State) (frame : List Byte) (i : Nat) : (s.withFrame frame).source i = s.source i := rfl

theorem State.source_eq_zero (s : State) (i : Nat) (h : s.numSources ≤ i) : s.source i = Source.zero := by
  simp only [State.numSources] at h
  simp [State.source, List.getD, List.getElem?_eq_none h]

theorem State.source_modifySource_same (s : State) (id : Nat) (f : Source → Source) (h : id < s.numSources) :
    (s.modifySource id f).source id = f (s.source id) := by
  simp only [State.numSources] at h
  simp [State.source, List.getD, h]

theorem State.source_modifySource_other (s : State) (id j : Nat) (f : Source → Source) (h : j ≠ id) :
    (s.modifySource id f).source j = s.source j := by
  simp [State.source, List.getD, Ne.symm h]

theorem State.source_modifyRaw_same (s : State) (id : Nat) (f : SourceRaw → SourceRaw) (h : id < s.numSources) :
    (s.modifyRaw id f).source id = ⟨f (s.source id).raw, (s.source id).line⟩ :=
  State.source_modifySource_same s id _ h

theorem State.source_modifyRaw_other (s : State) (id j : Nat) (f : SourceRaw → SourceRaw) (h : j ≠ id) :
    (s.modifyRaw id f).source j = s.source j :=
  State.source_modifySource_other s id j _ h

/-- The two laws of `modifySource` at once. -/
theorem State.source_modifySource (s : State) (id j : Nat) (f : Source → Source) (h : id < s.numSources) :
    (s.modifySource id f).source j = if j = id then f (s.source id) else s.source j := by
  split
  · rename_i e
    rw [e, State.source_modifySource_same s id f h]
  · rename_i e
    exact State.source_modifySource_other s id j f e

/-- The two laws of `modifyRaw` at once. -/
theorem State.source_modifyRaw (s : State) (id j : Nat) (f : SourceRaw → SourceRaw) (h : id < s.numSources) :
    (s.modifyRaw id f).source j = if j = id then ⟨f (s.source id).raw, (s.source id).line⟩ else s.source j :=
  State.source_modifySource s id j _ h

@[simp] theorem State.source_construct (s : State) (p : ResetParams) (i : Nat) :
    (s.construct p).source i = Source.zero := by
  simp only [State.source, State.construct_src, List.getD, List.getElem?_replicate]
  split <;> rfl

theorem State.source_loadRecord (s : State) (rec : Record) (h : rec.src.length = s.numSources) (i : Nat)
    (hi : i < s.numSources) :
    (s.loadRecord rec).source i = ⟨rec.src[i]'(h ▸ hi), (s.source i).line⟩ := by
  simp only [State.numSources] at h hi
  simp [State.source, State.loadRecord, List.getD, hi, h]

/-- Rewriting a source with what it already holds changes nothing. -/
theorem State.modifySource_eq_self (s : State) (id : Nat) (f : Source → Source) (h : f (s.source id) = s.source id) :
    s.modifySource id f = s := by
  have e : s.src.modify id f = s.src := by
    apply List.ext_getElem?
    intro i
    rw [List.getElem?_modify]
    by_cases hi : id = i
    · subst hi
      cases hx : s.src[id]? with
      | none => simp
      | some x =>
        have hs : s.source id = x := by simp [State.source, List.getD, hx]
        rw [hs] at h
        simp [h]
    · simp [hi]
  simp [State.modifySource, e]

/-- Writes of different sources commute. -/
theorem State.modifySource_comm (s : State) (a b : Nat) (f g : Source → Source) (h : a ≠ b) :
    (s.modifySource a f).modifySource b g = (s.modifySource b g).modifySource a f := by
  have e : (s.src.modify a f).modify b g = (s.src.modify b g).modify a f := by
    apply List.ext_getElem?
    intro i
    simp only [List.getElem?_modify]
    by_cases h1 : a = i <;> by_cases h2 : b = i <;> simp [h1, h2]
    omega
  simp [State.modifySource, e]

/-! ### The winner reads the stored registers alone (44_snapshot_restore R213, 10_state R32) -/

theorem State.level_congr {s t : State} (i : Nat) (hg : t.gc = s.gc) (hl : t.levelBits = s.levelBits)
    (hc : t.ctl i = s.ctl i) : t.level i = s.level i := by
  simp [State.level, State.nlbits, hg, hl, hc]

theorem State.priority_congr {s t : State} (i : Nat) (hg : t.gc = s.gc) (hl : t.levelBits = s.levelBits)
    (hc : t.ctl i = s.ctl i) : t.priority i = s.priority i := by
  simp [State.priority, State.pw, State.nlbits, hg, hl, hc]

theorem State.trigger_congr {s t : State} (i : Nat) (ht : t.trig = s.trig) (ha : t.attr i = s.attr i) :
    t.trigger i = s.trigger i := by
  simp [State.trigger, State.trigCode, ht, ha]

@[simp] theorem State.winner_countDraw (s : State) (id : Nat) : (s.countDraw id).winner = s.winner := rfl
@[simp] theorem State.winner_redispatch (s : State) : s.redispatch.winner = s.winner := rfl

/-- After every mutating event the delivered value is the new winner. -/
theorem State.out_mutated (s : State) (r : Reply) : (s.redispatch.withReply r).out = (s.redispatch.withReply r).winner := by
  rw [State.winner_withReply, State.winner_redispatch, State.withReply_out, State.redispatch_out]

end Sys2Proof.Machine
end

