-- ==== Sys2Proof/Laws/Ops.lean ====
section
/-! SUPPORT. For each shared operation, once, everything it can answer. -/

namespace Sys2Proof.Machine

theorem mutated_next_iff (s t : State) : mutated s = .next t ↔ t = s.redispatch.withReply .nothing := by
  simp [mutated, eq_comm]

theorem dropped_next_iff (s t : State) : dropped s = .next t ↔ t = s.withReply .nothing := by
  simp [dropped, eq_comm]

theorem answered_next_iff (v : BusData) (s t : State) : answered v s = .next t ↔ t = s.withReply (.data v) := by
  simp [answered, eq_comm]

theorem readRegister_next_iff (r : Reg) (s t : State) :
    readRegister r s = .next t ↔ t = s.withReply (.data (s.readReg r)) := by
  simp [readRegister, answered, eq_comm]

/-- A write stores and delivers the new winner when the instance has the register, and changes nothing otherwise. -/
theorem writeRegister_next_iff (r : Reg) (b : Byte) (s t : State) :
    writeRegister r b s = .next t ↔
      (s.hasReg r = true ∧ t = (s.storeReg r b).redispatch.withReply .nothing)
        ∨ (s.hasReg r = false ∧ t = s.withReply .nothing) := by
  unfold writeRegister
  cases h : s.hasReg r <;> simp [mutated, dropped, eq_comm]

/-- A line event on an existing line stores the line value and the next pending bit and delivers the winner. -/
theorem lineEvent_next_iff (id : Nat) (v : Bool) (s t : State) :
    lineEvent id v s = .next t ↔
      (id < s.numSources ∧ t = (((s.countDraw id).modifySource id fun x =>
          ⟨{ x.raw with ip := nextIp (s.trigger id) x.line v x.raw.ip s.freeBit }, v⟩).redispatch).withReply .nothing)
        ∨ (s.numSources ≤ id ∧ t = s.withReply .nothing) := by
  unfold lineEvent
  split
  · rename_i h
    rw [mutated_next_iff]
    exact ⟨fun e => .inl ⟨h, e⟩, fun e => e.elim (·.2) fun e => absurd h (Nat.not_lt.mpr e.1)⟩
  · rename_i h
    rw [dropped_next_iff]
    exact ⟨fun e => .inr ⟨Nat.not_lt.mp h, e⟩, fun e => e.elim (fun e => absurd e.1 h) (·.2)⟩

theorem acknowledge_next_iff (id : Nat) (s t : State) :
    acknowledge id s = .next t ↔
      (id < s.numSources ∧ t = (((s.countDraw id).modifyRaw id fun x =>
          { x with ip := ackIp (s.trigger id) x.ip s.freeBit }).redispatch).withReply .nothing)
        ∨ (s.numSources ≤ id ∧ t = s.withReply .nothing) := by
  unfold acknowledge
  split
  · rename_i h
    rw [mutated_next_iff]
    exact ⟨fun e => .inl ⟨h, e⟩, fun e => e.elim (·.2) fun e => absurd h (Nat.not_lt.mpr e.1)⟩
  · rename_i h
    rw [dropped_next_iff]
    exact ⟨fun e => .inr ⟨Nat.not_lt.mp h, e⟩, fun e => e.elim (fun e => absurd e.1 h) (·.2)⟩

theorem rejectionOf_none_iff (p : ResetParams) :
    rejectionOf p = none ↔ p.numSources ≠ 0 ∧ 0x1000 + 4 * p.numSources ≤ p.aperture ∧ p.levelBits ≤ 8 := by
  unfold rejectionOf
  split
  · simp_all
  · split
    · simp_all
    · split <;> simp_all

theorem execReset_next_iff (p : ResetParams) (s t : State) :
    execReset p s = .next t ↔ rejectionOf p = none ∧ t = s.construct p := by
  unfold execReset
  cases h : rejectionOf p <;> simp [eq_comm]

theorem execSnapshot_next_iff (s t : State) : execSnapshot s = .next t ↔ t = s.withReply (.record s.record) := by
  simp [execSnapshot, eq_comm]

theorem execRestore_next_iff (rec : Record) (s t : State) :
    execRestore rec s = .next t ↔
      (rec.src.length = s.numSources ∧ t = (s.loadRecord rec).redispatch.withReply .nothing)
        ∨ (rec.src.length ≠ s.numSources ∧ t = s.withReply (.rejected .recordSize)) := by
  unfold execRestore
  split <;> simp_all [mutated, eq_comm]

/-- `nextIp` as the transition table transcribed after 42_trigger_and_line_events R170 has it. -/
theorem nextIp_level (old v ip free : Bool) : nextIp .level old v ip free = v := rfl
theorem nextIp_risingEdge (old v ip free : Bool) : nextIp .risingEdge old v ip free = ((!old && v) || ip) := by
  cases old <;> cases v <;> simp [nextIp]
theorem nextIp_fallingEdge (old v ip free : Bool) : nextIp .fallingEdge old v ip free = ((old && !v) || ip) := by
  cases old <;> cases v <;> simp [nextIp]
theorem nextIp_reserved (old v ip free : Bool) : nextIp .reserved old v ip free = free := rfl

end Sys2Proof.Machine
end

