-- ==== Sys2Proof/Laws/PerInstr.lean ====
section
/-! SUPPORT. Families of statements about every operation as data, one lemma per constructor. -/

namespace Sys2Proof.Laws.PortByte

/-- The port each operation's event arrives on, as a frame's byte 4 names it. -/
def portOf : Instr → Byte
  | .reset _ => 4
  | .wrGcfg _ | .wrInfo _ | .wrMth _ | .wrIp _ _ | .wrIe _ _ | .wrAttr _ _ | .wrCtl _ _ | .wrDrop _ _ _ => 1
  | .rdGcfg | .rdInfo | .rdMth | .rdIp _ | .rdIe _ | .rdAttr _ | .rdCtl _ | .rdZero _ _ => 0
  | .lineAssert _ | .lineDeassert _ => 2
  | .ack _ => 3
  | .snapshot => 5
  | .restore _ => 6

/-- The operation's frame names its port in byte 4. -/
def Statement (i : Instr) : Prop := (encode i)[4]? = some (portOf i)

theorem reset (p : ResetParams) : Statement (.reset p) := rfl
theorem wrGcfg (b : Byte) : Statement (.wrGcfg b) := rfl
theorem rdGcfg : Statement (.rdGcfg) := rfl
theorem rdInfo : Statement (.rdInfo) := rfl
theorem wrInfo (d : BitVec 32) : Statement (.wrInfo d) := rfl
theorem wrMth (b : Byte) : Statement (.wrMth b) := rfl
theorem rdMth : Statement (.rdMth) := rfl
theorem wrIp (id : Nat) (b : Byte) : Statement (.wrIp id b) := rfl
theorem rdIp (id : Nat) : Statement (.rdIp id) := rfl
theorem wrIe (id : Nat) (b : Byte) : Statement (.wrIe id b) := rfl
theorem rdIe (id : Nat) : Statement (.rdIe id) := rfl
theorem wrAttr (id : Nat) (b : Byte) : Statement (.wrAttr id b) := rfl
theorem rdAttr (id : Nat) : Statement (.rdAttr id) := rfl
theorem wrCtl (id : Nat) (b : Byte) : Statement (.wrCtl id b) := rfl
theorem rdCtl (id : Nat) : Statement (.rdCtl id) := rfl
theorem wrDrop (off : Nat) (n : Width) (data : BusData) : Statement (.wrDrop off n data) := rfl
theorem rdZero (off : Nat) (n : Width) : Statement (.rdZero off n) := rfl
theorem lineAssert (id : Nat) : Statement (.lineAssert id) := rfl
theorem lineDeassert (id : Nat) : Statement (.lineDeassert id) := rfl
theorem ack (id : Nat) : Statement (.ack id) := rfl
theorem snapshot : Statement (.snapshot) := rfl
theorem restore (rec : Record) : Statement (.restore rec) := rfl

end Sys2Proof.Laws.PortByte
end

