-- ==== Sys2Proof/Tests/Slice0.lean ====
section
/-! SUPPORT. Tests. Expected values are the spec's: the examples in its rules and the rows of `95_test_vectors.md` and
`96_test_vectors_part2.md` (each test names its source), under `TRIG_REF` and `L = 6` unless a test says otherwise. The last part shows,
for every obligation with hypotheses, a state and operands that meet them all. -/

namespace Sys2Proof.Tests
open Sys2Proof Sys2Proof.Machine

/-! ### Helpers -/

/-- `TRIG_REF` of 00_scope R5: the instantiation the vectors use. -/
def trigRef : TrigTable := ⟨.level, .risingEdge, .fallingEdge, .reserved⟩

/-- A source from `ip`, `ie`, `attr`, `ctl`, `line`. -/
def mk (ip ie : Bool) (attr ctl : Byte) (line : Bool) : Source := ⟨⟨ip, ie, attr, ctl⟩, line⟩

/-- An instance with the given `L`, `gc`, `mth` and sources, its output current. -/
def inst (L : Nat) (gc mth : Byte) (src : List Source) : State :=
  ({ State.reset with trig := trigRef, srcSoft := 0, srcTimer := 1, levelBits := L, gc := gc, mth := mth, src := src } : State).redispatch

/-- The result is a next state of which the check holds. -/
def ends (r : Result) (check : State → Bool) : Bool :=
  match r with
  | .next t => check t
  | .fault _ => false
  | .refused _ => false

/-- The step refuses the frame for this reason. -/
def refuses (r : Result) (e : DecodeError) : Bool :=
  match r with
  | .refused (.malformedFrame e') => decide (e' = e)
  | _ => false

/-- The operation ends in this configuration error. -/
def rejects (r : Result) (e : ConfigError) : Bool :=
  match r with
  | .fault (.configError e') => decide (e' = e)
  | _ => false

/-- Eight sources after reset. -/
def quiet : State := inst 6 0 0 (List.replicate 8 Source.zero)

/-- One source of each trigger mode under `TRIG_REF`, enabled, lines low. -/
def modes : State :=
  inst 6 0 0 [mk false true 0 0 false, mk false true 2 0 false, mk false true 4 0 false, mk false true 6 0 false]

/-- The same, every source pending and every line high. -/
def modesHigh : State :=
  inst 6 0 0 [mk true true 0 0 true, mk true true 2 0 true, mk true true 4 0 true, mk true true 6 0 true]

/-- Sources 0 and 1 tie, source 2 ranks above both, source 3 is disabled; `nlbits = 3` (scenario B's bytes). -/
def ranked : State :=
  inst 6 0x06 0 [mk true true 0 0xA4 true, mk true true 0 0xA4 true, mk true true 1 0xAC true, mk true false 0 0xFF true]

/-! ### Each check of WellFormed refuses an ill-formed operation -/

theorem test_wf_id_at_N : (Instr.wrIp 32 1).wellFormed 32 = false ∧ (Instr.rdCtl 32).wellFormed 32 = false := by decide
theorem test_wf_write_row_is_no_drop :
    (Instr.wrDrop 0x1014 .one 1).wellFormed 32 = false ∧ (Instr.wrDrop 0x1014 .two 1).wellFormed 32 = true := by decide
theorem test_wf_read_row_is_no_zero :
    (Instr.rdZero 0x0004 .four).wellFormed 32 = false ∧ (Instr.rdZero 0x0004 .one).wellFormed 32 = true := by decide
theorem test_wf_data_wider_than_access :
    (Instr.wrDrop 0x1080 .one 0x100).wellFormed 32 = false ∧ (Instr.wrDrop 0x1080 .one 0xFF).wellFormed 32 = true := by decide
theorem test_wf_line_id : (Instr.lineAssert 8).wellFormed 8 = false ∧ (Instr.lineDeassert 8).wellFormed 8 = false := by decide
theorem test_wf_ack_id : (Instr.ack 8).wellFormed 8 = false := by decide
/-- 92_eei_decisions D13, D15: nothing bounds `N`, an id or an offset. -/
theorem test_wf_no_upper_bound :
    (Instr.rdIp 0x40000000).wellFormed 0x40000001 = true ∧ (Instr.rdZero (2 ^ 40) .one).wellFormed 32 = true := by decide

/-! ### Decoding: a frame written out for every operation (offsets of 20_memory R61 and the examples of 41_mmio_operations) -/

theorem test_decode_reset :
    decode 8 [0x20, 0, 0, 0, 0x04, 0, 0x80, 0x20, 0x80, 0x40, 0x06, 0x02] = .ok (.reset ⟨0x1000, 0x2000, 32, 6, 2⟩) := by decide
theorem test_decode_wr_gcfg : decode 32 [0x00, 0, 0, 0, 0x01, 0, 0x00, 0x0C] = .ok (.wrGcfg 0x0C) := by decide
theorem test_decode_rd_gcfg : decode 32 [0x00, 0, 0, 0, 0x00, 0, 0x00] = .ok .rdGcfg := by decide
theorem test_decode_rd_info : decode 32 [0x04, 0, 0, 0, 0x00, 0, 0x02] = .ok .rdInfo := by decide
theorem test_decode_wr_info :
    decode 32 [0x04, 0, 0, 0, 0x01, 0, 0x02, 0x78, 0x56, 0x34, 0x12] = .ok (.wrInfo 0x12345678) := by decide
theorem test_decode_wr_mth : decode 32 [0x0B, 0, 0, 0, 0x01, 0, 0x00, 0x80] = .ok (.wrMth 0x80) := by decide
theorem test_decode_rd_mth : decode 32 [0x0B, 0, 0, 0, 0x00, 0, 0x00] = .ok .rdMth := by decide
theorem test_decode_wr_ip : decode 32 [0x28, 0x10, 0, 0, 0x01, 0, 0x00, 0x01] = .ok (.wrIp 10 0x01) := by decide
theorem test_decode_rd_ip : decode 32 [0x28, 0x10, 0, 0, 0x00, 0, 0x00] = .ok (.rdIp 10) := by decide
theorem test_decode_wr_ie : decode 32 [0x15, 0x10, 0, 0, 0x01, 0, 0x00, 0xFF] = .ok (.wrIe 5 0xFF) := by decide
theorem test_decode_rd_ie : decode 32 [0x15, 0x10, 0, 0, 0x00, 0, 0x00] = .ok (.rdIe 5) := by decide
theorem test_decode_wr_attr : decode 32 [0x2A, 0x10, 0, 0, 0x01, 0, 0x00, 0x03] = .ok (.wrAttr 10 0x03) := by decide
theorem test_decode_rd_attr : decode 32 [0x2A, 0x10, 0, 0, 0x00, 0, 0x00] = .ok (.rdAttr 10) := by decide
theorem test_decode_wr_ctl : decode 32 [0x7F, 0x10, 0, 0, 0x01, 0, 0x00, 0xA4] = .ok (.wrCtl 31 0xA4) := by decide
theorem test_decode_rd_ctl : decode 32 [0x17, 0x10, 0, 0, 0x00, 0, 0x00] = .ok (.rdCtl 5) := by decide
theorem test_decode_wr_drop :
    decode 32 [0x14, 0x10, 0, 0, 0x01, 0, 0x01, 0x01, 0x02] = .ok (.wrDrop 0x1014 .two 0x0201) := by decide
theorem test_decode_rd_zero : decode 32 [0x80, 0x10, 0, 0, 0x00, 0, 0x00] = .ok (.rdZero 0x1080 .one) := by decide
theorem test_decode_line_assert : decode 32 [0x05, 0, 0, 0, 0x02, 0, 0x01] = .ok (.lineAssert 5) := by decide
theorem test_decode_line_deassert : decode 32 [0x05, 0, 0, 0, 0x02, 0, 0x00] = .ok (.lineDeassert 5) := by decide
theorem test_decode_ack : decode 32 [0x0A, 0, 0, 0, 0x03, 0] = .ok (.ack 10) := by decide
theorem test_decode_snapshot : decode 32 [0, 0, 0, 0, 0x05, 0] = .ok .snapshot := by decide
theorem test_decode_restore :
    decode 1 [0x01, 0, 0, 0, 0x06, 0, 0x0C, 0x80, 0x01, 0x00, 0x03, 0xA4]
      = .ok (.restore ⟨0x0C, 0x80, [⟨true, false, 0x03, 0xA4⟩]⟩) := by decide

/-- An offset and an id above 32 bits: the selector's higher bits stand after the port (20_memory R61, D13). -/
theorem test_decode_beyond_32_bits :
    decode 0x40000001 [0x03, 0x10, 0, 0, 0x00, 0x01, 0x00] = .ok (.rdCtl 0x40000000)
      ∧ decode (2 ^ 40) [0x0A, 0, 0, 0, 0x03, 0x81, 0x01] = .ok (.ack 0x810000000A) := by decide

/-- The word of a table row is an offset, read one byte wide (log 13). -/
theorem test_table_words :
    decodeTableWord 32 0x0000 = some .rdGcfg ∧ decodeTableWord 32 0x000B = some .rdMth
      ∧ decodeTableWord 32 0x0004 = some (.rdZero 0x0004 .one) ∧ decodeTableWord 32 0x1017 = some (.rdCtl 5) := by decide

theorem test_fetch_word_runs : ends (step (State.reset.withFetchWord 32 0x000B)) (fun t => decide (t.reply = .data 0)) = true := by
  decide

theorem test_refuse_short_header :
    refuses (step (quiet.withInputs [[0, 0, 0, 0]])) .shortHeader = true
      ∧ refuses (step (quiet.withInputs [[0, 0, 0, 0, 1, 0x80]])) .shortHeader = true := by decide
theorem test_refuse_unknown_port : refuses (step (quiet.withInputs [[0, 0, 0, 0, 7, 0]])) .unknownPort = true := by decide
theorem test_refuse_bad_width : refuses (step (quiet.withInputs [[0, 0, 0, 0, 0, 0, 4]])) .badWidth = true := by decide
theorem test_refuse_bad_length : refuses (step (quiet.withInputs [[0, 0, 0, 0, 1, 0, 1, 0xFF]])) .badLength = true := by decide
theorem test_refuse_bad_bit : refuses (step (quiet.withInputs [[0, 0, 0, 0, 2, 0, 2]])) .badBit = true := by decide
theorem test_refuse_bad_selector : refuses (step (quiet.withInputs [[1, 0, 0, 0, 5, 0]])) .badSelector = true := by decide

/-! ### The operations -/

/-- 10_state R37 and the table after it: the reset level is 0xFF, the reset priority 0x03 at `L = 6`. -/
theorem test_reset_values : State.reset.out = none ∧ quiet.level 3 = 0xFF ∧ quiet.priority 3 = 0x03 := by decide
/-- 70_reset_and_hazards R260, the examples. -/
theorem test_reset_accepts :
    ends (exec (.reset ⟨0, 0x2000, 32, 6, 0⟩) modesHigh)
      (fun t => decide (t.numSources = 32) && !t.ip 0 && !t.line 0 && decide (t.out = none)) = true := by decide
/-- 70_reset_and_hazards R260, the examples. -/
theorem test_reset_rejects :
    rejects (exec (.reset ⟨0, 0x2000, 0, 6, 0⟩) quiet) .noSources = true
      ∧ rejects (exec (.reset ⟨0, 0x2000, 2048, 6, 0⟩) quiet) .apertureTooSmall = true
      ∧ rejects (exec (.reset ⟨0, 0x2000, 32, 9, 0⟩) quiet) .tooManyLevelBits = true := by decide

/-- 40_attribute_decoder R128, the example: the write alone turns the winner into none. -/
theorem test_wr_gcfg :
    ends (exec (.wrGcfg 0x02) (inst 6 0x00 0x80 [Source.zero, Source.zero, mk true true 0 0x5C false]))
      (fun t => decide (t.level 2 = 0x7F) && decide (t.priority 2 = 0xBF) && decide (t.out = none)) = true := by decide
/-- 10_state R21, 40_attribute_decoder R120: all eight bits are stored and read back. -/
theorem test_rd_gcfg : ends (exec .rdGcfg (inst 6 0xE1 0 [Source.zero])) (fun t => decide (t.reply = .data 0xE1)) = true := by decide
theorem test_rd_info :
    exec .rdInfo quiet = .next { quiet with reply := .data ((Config.infoValue 6 8).setWidth 64) } := rfl
theorem test_wr_info : ends (exec (.wrInfo 0xFFFFFFFF) ranked) (fun t => decide (t = ranked)) = true := by decide
/-- 43_pending_set_and_dispatch R203: "at or above". -/
theorem test_wr_mth :
    ends (exec (.wrMth 0xBF) ranked) (fun t => decide (t.out = some ⟨2, 0xBF, true⟩)) = true
      ∧ ends (exec (.wrMth 0xC0) ranked) (fun t => decide (t.out = none) && decide (t.pendingList = [2, 0, 1])) = true := by decide
theorem test_rd_mth : ends (exec .rdMth (inst 6 0 0x80 [Source.zero])) (fun t => decide (t.reply = .data 0x80)) = true := by decide
/-- 20_memory R67, D5: bit 0 alone is the pending bit. -/
theorem test_wr_ip :
    ends (exec (.wrIp 1 0xFF) modes) (fun t => t.ip 1 && decide (t.out = some ⟨1, 0xFF, false⟩)) = true
      ∧ ends (exec (.wrIp 1 0xFE) modesHigh) (fun t => !t.ip 1 && t.line 1) = true := by decide
theorem test_rd_ip :
    ends (exec (.rdIp 0) modesHigh) (fun t => decide (t.reply = .data 1)) = true
      ∧ ends (exec (.rdIp 4) modesHigh) (fun t => decide (t.reply = .data 0)) = true := by decide
/-- 42_trigger_and_line_events R179: a pending bit set while disabled shows when the source is enabled. -/
theorem test_wr_ie :
    ends (exec (.wrIe 3 0x01) ranked) (fun t => decide (t.out = some ⟨3, 0xFF, false⟩)) = true
      ∧ ends (exec (.wrIe 2 0x00) ranked) (fun t => t.ip 2 && decide (t.pendingList = [0, 1])) = true := by decide
theorem test_rd_ie : ends (exec (.rdIe 3) ranked) (fun t => decide (t.reply = .data 0)) = true := by decide
/-- 42_trigger_and_line_events R182: the mode changes, the pending bit does not. -/
theorem test_wr_attr :
    ends (exec (.wrAttr 0 0xFB) modesHigh)
      (fun t => t.ip 0 && decide (t.trigger 0 = .risingEdge) && decide (t.out = some ⟨0, 0xFF, true⟩)) = true := by decide
theorem test_rd_attr : ends (exec (.rdAttr 2) modes) (fun t => decide (t.reply = .data 4)) = true := by decide
/-- Scenario B: `ctl[9]` 0xA7 is still a tie, 0xAC is not. -/
theorem test_wr_ctl :
    ends (exec (.wrCtl 1 0xA7) ranked) (fun t => decide (t.pendingList = [2, 0, 1])) = true
      ∧ ends (exec (.wrCtl 1 0xB0) ranked) (fun t => decide (t.pendingList = [1, 2, 0])) = true := by decide
theorem test_rd_ctl : ends (exec (.rdCtl 2) ranked) (fun t => decide (t.reply = .data 0xAC)) = true := by decide
theorem test_wr_drop : ends (exec (.wrDrop 0x1004 .two 0x0101) ranked) (fun t => decide (t = ranked)) = true := by decide
theorem test_rd_zero :
    ends (exec (.rdZero 0x1000 .four) ranked) (fun t => decide (t = { ranked with reply := .data 0 })) = true := by decide
/-- 42_trigger_and_line_events R174 to R176: who becomes pending on a rise. -/
theorem test_line_assert :
    ends (exec (.lineAssert 0) modes) (fun t => t.ip 0 && t.line 0) = true
      ∧ ends (exec (.lineAssert 1) modes) (fun t => t.ip 1 && t.line 1) = true
      ∧ ends (exec (.lineAssert 2) modes) (fun t => !t.ip 2 && t.line 2) = true := by decide
/-- 42_trigger_and_line_events R174 to R176 on a fall, the edge modes latched; the draw counted in `Reserved` mode only (R177). -/
theorem test_line_deassert :
    ends (exec (.lineDeassert 0) modesHigh) (fun t => !t.ip 0 && !t.line 0 && decide (t.draws = 0)) = true
      ∧ ends (exec (.lineDeassert 1) modesHigh) (fun t => t.ip 1 && !t.line 1) = true
      ∧ ends (exec (.lineDeassert 2) (inst 6 0 0 [Source.zero, Source.zero, mk false true 4 0 true])) (fun t => t.ip 2) = true
      ∧ ends (exec (.lineDeassert 3) modesHigh) (fun t => !t.line 3 && decide (t.draws = 1)) = true := by decide
/-- 42_trigger_and_line_events R180. -/
theorem test_ack :
    ends (exec (.ack 0) modesHigh) (fun t => t.ip 0) = true
      ∧ ends (exec (.ack 1) modesHigh) (fun t => !t.ip 1 && t.line 1) = true
      ∧ ends (exec (.ack 2) modesHigh) (fun t => !t.ip 2) = true := by decide
/-- 42_trigger_and_line_events R181: an acknowledge never sets the bit. -/
theorem test_ack_reserved_not_pending : ends (exec (.ack 3) modes) (fun t => !t.ip 3 && decide (t.draws = 1)) = true := by decide
theorem test_snapshot :
    ends (exec .snapshot (inst 6 0x0C 0x80 [mk true false 3 0xA4 true]))
      (fun t => decide (t.reply = .record ⟨0x0C, 0x80, [⟨true, false, 3, 0xA4⟩]⟩)) = true := by decide
/-- 44_snapshot_restore R211: registers loaded, line bits kept, winner delivered. -/
theorem test_restore :
    ends (exec (.restore ⟨0x0C, 0, [⟨true, true, 1, 0x04⟩]⟩) (inst 6 0 0 [mk false false 0 0 true]))
      (fun t => t.line 0 && decide (t.out = some ⟨0, 0x07, true⟩)) = true := by decide
/-- 44_snapshot_restore R212. -/
theorem test_restore_wrong_size :
    ends (exec (.restore ⟨0, 0, []⟩) ranked) (fun t => decide (t = { ranked with reply := .rejected .recordSize })) = true := by decide

/-! ### Every obligation's hypotheses can be met -/

theorem witness_StepRunsTheDecodedEvent :
    (quiet.withInputs [[0x05, 0, 0, 0, 2, 0, 1]]).inputs = [0x05, 0, 0, 0, 2, 0, 1] :: []
      ∧ decode (quiet.withInputs [[0x05, 0, 0, 0, 2, 0, 1]]).numSources [0x05, 0, 0, 0, 2, 0, 1] = .ok (.lineAssert 5) := by decide

theorem witness_StepWithoutEventChangesNothing : ranked.inputs = [] := by decide

/-- One operation of each row, ids and offsets at the ends of their ranges. -/
theorem witness_DecodeOfEncodeIsTheOperation :
    ∀ i ∈ [Instr.reset ⟨2 ^ 64, 2 ^ 64, 2 ^ 32, 256, 2 ^ 32⟩, .wrGcfg 0xFF, .rdGcfg, .rdInfo, .wrInfo 0xFFFFFFFF,
      .wrMth 0xFF, .rdMth, .wrIp 0 1, .rdIp 31, .wrIe 31 1, .rdIe 0, .wrAttr 31 6, .rdAttr 31, .wrCtl 31 0xFF, .rdCtl 31,
      .wrDrop (2 ^ 32) .eight 0xFFFFFFFFFFFFFFFF, .wrDrop 0x0000 .two 0xFFFF, .rdZero 0x1080 .one, .rdZero 0x0FFF .one,
      .lineAssert 31, .lineDeassert 0, .ack 31, .snapshot, .restore ⟨1, 2, [⟨true, true, 3, 4⟩]⟩],
      i.wellFormed 32 = true := by decide

/-- Both ends of the source area, and the offsets just outside it. -/
theorem witness_MmioReadSelectsItsRow :
    (0x1000 = 0x1000 + 4 * 0 + 0 ∧ 0 < 32) ∧ (0x107F = 0x1000 + 4 * 31 + 3 ∧ 31 < 32)
      ∧ (0x100001003 = 0x1000 + 4 * 0x40000000 + 3 ∧ 0x40000000 < 0x40000001)
      ∧ (∀ off ∈ [0x0FFF, 0x1080, 0x100000000], ¬ (off = 0x0000 ∧ Width.one = .one)
          ∧ ¬ (off = 0x0004 ∧ Width.one = .four) ∧ ¬ (off = 0x000B ∧ Width.one = .one)
          ∧ ¬ (Width.one = .one ∧ 0x1000 ≤ off ∧ off < 0x1000 + 4 * 32)) := by decide

/-- The same for writes; the widest data of each width. -/
theorem witness_MmioWriteSelectsItsRow :
    0xFFFFFFFF < 256 ^ Width.four.bytes ∧ (0x107F = 0x1000 + 4 * 31 + 3 ∧ 0xFF < 256 ^ Width.one.bytes ∧ 31 < 32)
      ∧ (0xFFFFFFFFFFFFFFFF < 256 ^ Width.eight.bytes ∧ ¬ (0x1000 = 0x0000 ∧ Width.eight = .one)
          ∧ ¬ (0x1000 = 0x0004 ∧ Width.eight = .four) ∧ ¬ (0x1000 = 0x000B ∧ Width.eight = .one)
          ∧ ¬ (Width.eight = .one ∧ 0x1000 ≤ 0x1000 ∧ 0x1000 < 0x1000 + 4 * 32)) := by decide

theorem witness_ReadReturnsMemReadAndIsIdempotent :
    (ranked.withInputs [readFrame 0x100B .one, readFrame 0x100B .one]).inputs
      = readFrame 0x100B .one :: readFrame 0x100B .one :: [] := by decide

/-- A global register, and each register of the first and the last source. -/
theorem witness_RegisterWriteReadsBackAndIsLocal :
    ∀ r ∈ [Reg.gcfg, .mth, .ip 0, .ie 3, .attr 0, .ctl 3], r ≠ .info ∧ ranked.hasReg r = true
      ∧ (ranked.withInputs [writeRegFrame r (0xAB : Byte).toNat]).inputs = writeRegFrame r (0xAB : Byte).toNat :: [] := by decide

theorem witness_ReadOperationsReturnTheirRegister : 0 < ranked.numSources ∧ 3 < ranked.numSources := by decide

/-- `PendingByteWrite`, `EnableByteWrite`, `AttrByteWrite`, `CtlByteWrite`: the first and the last source, and `nlbits = 0`. -/
theorem witness_PendingByteWrite : 0 < modes.numSources ∧ 3 < modes.numSources := by decide
theorem witness_EnableByteWrite : 0 < ranked.numSources ∧ 3 < ranked.numSources := by decide
theorem witness_AttrByteWrite : 0 < modesHigh.numSources ∧ 3 < modesHigh.numSources := by decide
theorem witness_CtlByteWrite : 3 < modes.numSources ∧ modes.nlbits = 0 ∧ 3 < ranked.numSources ∧ ranked.nlbits = 3 := by decide

theorem witness_AbsentSourceIsIgnored : ranked.numSources ≤ 4 := by decide

theorem witness_LineEventInLevelMode : 0 < modes.numSources ∧ modes.trigger 0 = .level := by decide
/-- Both lines from which the event can start. -/
theorem witness_LineEventInRisingEdgeMode :
    (1 < modes.numSources ∧ modes.trigger 1 = .risingEdge ∧ modes.line 1 = false)
      ∧ (1 < modesHigh.numSources ∧ modesHigh.trigger 1 = .risingEdge ∧ modesHigh.line 1 = true) := by decide
theorem witness_LineEventInFallingEdgeMode :
    (2 < modes.numSources ∧ modes.trigger 2 = .fallingEdge ∧ modes.line 2 = false)
      ∧ (2 < modesHigh.numSources ∧ modesHigh.trigger 2 = .fallingEdge ∧ modesHigh.line 2 = true) := by decide
theorem witness_LineEventInReservedMode : 3 < modes.numSources ∧ modes.trigger 3 = .reserved := by decide
theorem witness_AckClearsEdgeSourcesOnly :
    (0 < modesHigh.numSources ∧ modesHigh.trigger 0 = .level) ∧ (1 < modesHigh.numSources ∧ modesHigh.trigger 1 = .risingEdge)
      ∧ (2 < modesHigh.numSources ∧ modesHigh.trigger 2 = .fallingEdge) := by decide
theorem witness_AckInReservedModeNeverSets :
    3 < modesHigh.numSources ∧ modesHigh.trigger 3 = .reserved ∧ modesHigh.ip 3 = true := by decide

/-- A latched source whose line falls. -/
theorem witness_LatchedEdgeStaysUntilAckOrWrite :
    ∃ t, (modesHigh.trigger 1 = .risingEdge ∨ modesHigh.trigger 1 = .fallingEdge) ∧ modesHigh.ip 1 = true
      ∧ exec (.lineDeassert 1) modesHigh = .next t ∧ Instr.lineDeassert 1 ≠ .ack 1 ∧ (∀ b, Instr.lineDeassert 1 ≠ .wrIp 1 b)
      ∧ (∀ p, Instr.lineDeassert 1 ≠ .reset p) ∧ (∀ rec, Instr.lineDeassert 1 ≠ .restore rec) :=
  ⟨_, by decide, by decide, rfl, nofun, fun _ => nofun, fun _ => nofun, fun _ => nofun⟩

theorem witness_ReassertingPendingLevelLineChangesNothing :
    0 < modesHigh.numSources ∧ modesHigh.trigger 0 = .level ∧ modesHigh.line 0 = true ∧ modesHigh.ip 0 = true ∧ modesHigh.OutCurrent := by
  refine ⟨?_, ?_, ?_, ?_, ?_⟩ <;> first | decide | rfl

theorem witness_LineEventsOnDifferentSourcesCommute :
    (0 : Nat) ≠ 2 ∧ modes.trigger 0 ≠ .reserved ∧ modes.trigger 2 ≠ .reserved ∧ 0 < modes.numSources ∧ 2 < modes.numSources := by decide

/-- A field value above `L` (0x1E at `L = 6`, the example of R120), and a byte that agrees with it in bits 4 to 1 only. -/
theorem witness_NlbitsIsTheFieldClampedToL :
    (inst 6 0x1E 0 []).levelBits ≤ (inst 6 0x1E 0 []).gc.toNat / 2 % 16
      ∧ ∀ k : Fin 5, 1 ≤ k.val → (0xFF : Byte).getLsbD k = (inst 6 0x1E 0 []).gc.getLsbD k := by decide

/-- `nlbits = 0`, `nlbits = 8`, and level 0. -/
theorem witness_LevelIsTheTopBitsLeftJustified :
    ((inst 6 0 0 [Source.zero]).levelBits ≤ 8 ∧ (inst 6 0 0 [Source.zero]).nlbits = 0)
      ∧ ((inst 8 0x10 0 [Source.zero]).levelBits ≤ 8 ∧ (inst 8 0x10 0 [Source.zero]).nlbits = 8
          ∧ (inst 8 0x10 0 [Source.zero]).level 0 = 0) := by decide

/-- `pw = 0`, and `pw = 3`. -/
theorem witness_PriorityIsTheNextBitsLeftJustified :
    ((inst 6 0x0C 0 []).levelBits ≤ 8 ∧ (inst 6 0x0C 0 []).pw = 0)
      ∧ (ranked.levelBits ≤ 8 ∧ ranked.pw ≠ 0) := by decide

theorem witness_TriggerIsDecodedFromBitsTwoAndOne :
    (modes.attr 0).toNat / 2 % 4 = 0 ∧ (modes.attr 1).toNat / 2 % 4 = 1 ∧ (modes.attr 2).toNat / 2 % 4 = 2
      ∧ (modes.attr 3).toNat / 2 % 4 = 3 := by decide

theorem witness_ShvIsForwardedAndNotRanked : ranked.winner = some ⟨2, 0xBF, true⟩ := by decide

theorem witness_RaisingNlbitsNeverRaisesALevel :
    ranked.levelBits ≤ 8 ∧ ranked.nlbits ≤ ({ ranked with gc := 0x0C } : State).nlbits := by decide

theorem witness_GlobalConfigWriteKeepsThePendingOrder :
    ∃ t, ranked.levelBits ≤ 8 ∧ exec (.wrGcfg 0x00) ranked = .next t ∧ t.out = some ⟨2, 0xFF, true⟩ :=
  ⟨_, by decide, rfl, by decide⟩

/-- Both sides of the membership clause, and another state that agrees on the two bits. -/
theorem witness_MemberIsEnabledAndPending :
    (ranked.ie 0 = true ∧ ranked.ip 0 = true) ∧ ranked.ie 3 = false
      ∧ ({ ranked with mth := 0xFF } : State).ie 0 = ranked.ie 0 ∧ ({ ranked with mth := 0xFF } : State).ip 0 = ranked.ip 0 := by decide

/-- A level decides, a priority decides, the id decides. -/
theorem witness_AboveIsLevelThenPriorityThenId :
    (ranked.level 0).toNat < (ranked.level 3).toNat
      ∧ ((ranked.level 2).toNat = (ranked.level 0).toNat ∧ (ranked.priority 0).toNat < (ranked.priority 2).toNat)
      ∧ ((ranked.level 0).toNat = (ranked.level 1).toNat ∧ (ranked.priority 0).toNat = (ranked.priority 1).toNat) := by decide

/-- The order has three sources in a row. -/
theorem witness_AboveIsAStrictTotalOrder :
    (2 : Nat) ≠ 0 ∧ ranked.above 2 0 = true ∧ ranked.above 0 1 = true := by decide

theorem witness_PendingListIsTheMembersInOrder :
    (∀ i, i ∈ [2, 0, 1] ↔ i < ranked.numSources ∧ ranked.member i = true)
      ∧ [2, 0, 1].Pairwise (fun a b => ranked.above a b = true) := by
  refine ⟨fun i => ⟨fun h => ?_, fun h => ?_⟩, by decide⟩
  · have key : ∀ i ∈ [2, 0, 1], i < ranked.numSources ∧ ranked.member i = true := by decide
    exact key i h
  · have key : ∀ i : Fin 4, ranked.member i = true → i.val ∈ [2, 0, 1] := by decide
    exact key ⟨i, h.1⟩ h.2

theorem witness_HeadRanksAboveEveryOtherMember :
    ranked.head = some 2 ∧ 1 < ranked.numSources ∧ ranked.member 1 = true ∧ 1 ≠ 2 ∧ quiet.head = none := by decide

/-- No head, a head at the threshold, a head below it. -/
theorem witness_WinnerIsTheHeadAtOrAboveThreshold :
    quiet.head = none
      ∧ (({ ranked with mth := 0xBF } : State).head = some 2 ∧ (0xBF : Byte) ≤ ({ ranked with mth := 0xBF } : State).level 2)
      ∧ (({ ranked with mth := 0xC0 } : State).head = some 2 ∧ ({ ranked with mth := 0xC0 } : State).level 2 < 0xC0) := by decide

theorem witness_WinnerIsTheLinearScan :
    ranked.winner = some ⟨2, 0xBF, true⟩ ∧ ranked.scanWinner = some ⟨2, 0xBF, true⟩ := by decide

theorem witness_ThresholdTestIsAtOrAbove :
    (ranked.head = some 2 ∧ ranked.mth = 0 ∧ (0xBF : Byte) ≤ ranked.level 2) ∧ (modesHigh.head = some 0 ∧ modesHigh.nlbits = 0) := by decide

/-- An operation that re-runs the Dispatcher (a `RESTORE` of the instance's size among them), and one that does not. -/
theorem witness_DispatcherRunsExactlyWhenListed :
    (∃ t, (Instr.restore ranked.record).wellFormed ranked.numSources = true ∧ ranked.record.src.length = ranked.numSources
        ∧ exec (.restore ranked.record) ranked = .next t ∧ redispatches (.restore ranked.record) = true)
      ∧ ∃ t, Instr.rdMth.wellFormed ranked.numSources = true ∧ (∀ rec, Instr.rdMth = .restore rec → rec.src.length = ranked.numSources)
        ∧ exec .rdMth ranked = .next t ∧ redispatches .rdMth = false :=
  ⟨⟨_, by decide, by decide, rfl, rfl⟩, ⟨_, by decide, fun _ => nofun, rfl, rfl⟩⟩

theorem witness_DeliveredIdFitsTheOutput : ranked.winner = some ⟨2, 0xBF, true⟩ ∧ idWidth 4 = 2 ∧ idWidth 5 = 3 ∧ idWidth 1 = 1 := by decide

/-- The smallest instance at the aperture's bound and at `L = 8` (R260's corner case `N == 1`). -/
theorem witness_ResetCreatesAZeroedController :
    let p : ResetParams := ⟨0, 0x1004, 1, 8, 0⟩
    p.numSources ≠ 0 ∧ 0x1000 + 4 * p.numSources ≤ p.aperture ∧ p.levelBits ≤ 8 := by decide

theorem witness_DerivedStateAfterReset :
    (∃ t, exec (.reset ⟨0, 0x1004, 1, 0, 0⟩) modesHigh = .next t) ∧ (∃ t, exec (.reset ⟨0, 0x1004, 1, 8, 0⟩) modesHigh = .next t)
      ∧ 0 < 1 :=
  ⟨⟨_, rfl⟩, ⟨_, rfl⟩, by decide⟩

/-- The values just past each bound. -/
theorem witness_ResetRejectsInvalidConstruction :
    (let p : ResetParams := ⟨0, 0x1003, 1, 6, 0⟩; p.numSources ≠ 0 ∧ p.aperture < 0x1000 + 4 * p.numSources)
      ∧ (let p : ResetParams := ⟨0, 0x1004, 1, 9, 0⟩; p.numSources ≠ 0 ∧ 0x1000 + 4 * p.numSources ≤ p.aperture ∧ 8 < p.levelBits)
      ∧ (let p : ResetParams := ⟨0, 0, 0, 9, 0⟩; p.numSources = 0) := by decide

theorem witness_SnapshotReturnsTheRegisters : 3 < ranked.record.src.length := by decide

theorem witness_RestoreLoadsTheRecord : ranked.record.src.length = modes.numSources ∧ 3 < ranked.record.src.length := by decide

theorem witness_RestoreOfAnotherSizeIsRejected : (⟨0, 0, []⟩ : Record).src.length ≠ ranked.numSources := by decide

/-- A snapshot restored into a fresh instance and into a changed one. -/
theorem witness_SnapshotRestoreRoundTrip :
    ∃ a, exec .snapshot ranked = .next a ∧ a.reply = .record ranked.record
      ∧ ∀ u ∈ [inst 6 0 0 (List.replicate 4 Source.zero), modesHigh],
          u.numSources = ranked.numSources ∧ u.levelBits = ranked.levelBits ∧ u.trig = ranked.trig :=
  ⟨_, rfl, rfl, by decide⟩

/-- A fresh instance of one source, and a record that makes the source rising-edge under `TRIG_REF`. -/
theorem witness_RestoreIntoFreshInstanceForgetsTheLines :
    ∃ f u, exec (.reset ⟨0, 0x1004, 1, 6, 0⟩) modesHigh = .next f ∧ (⟨0, 0, [⟨false, true, 2, 0⟩]⟩ : Record).src.length = 1
      ∧ exec (.restore ⟨0, 0, [⟨false, true, 2, 0⟩]⟩) f = .next u ∧ 0 < 1 ∧ u.trigger 0 = .risingEdge :=
  ⟨_, _, rfl, rfl, rfl, by decide, by decide⟩

theorem witness_EveryStepKeepsTheInvariant :
    ∃ t, (ranked.withInputs [[0x00, 0, 0, 0, 2, 0, 0]]).Inv ∧ step (ranked.withInputs [[0x00, 0, 0, 0, 2, 0, 0]]) = .next t :=
  ⟨_, ⟨⟨by decide, by decide, by decide⟩, ⟨by decide, by decide, by decide⟩, show _ = _ from by decide⟩, rfl⟩

theorem witness_NothingIsRaisedAtRunTime :
    (∀ p, Instr.ack 99 ≠ .reset p) ∧ (∀ rec, Instr.ack 99 ≠ .restore rec) := ⟨fun _ => nofun, fun _ => nofun⟩

theorem witness_ParametersAreFixedBetweenResets :
    ∃ t, (∀ p, Instr.wrGcfg 0x0C ≠ .reset p) ∧ exec (.wrGcfg 0x0C) ranked = .next t := ⟨_, fun _ => nofun, rfl⟩

/-- A line event on source 0 meets every premise of the clauses about source 1. -/
theorem witness_EachRegisterHasItsWriters :
    ∃ t, exec (.lineAssert 0) modes = .next t ∧ (∀ p, Instr.lineAssert 0 ≠ .reset p) ∧ (∀ rec, Instr.lineAssert 0 ≠ .restore rec)
      ∧ Instr.lineAssert 0 ≠ .lineAssert 1 ∧ Instr.lineAssert 0 ≠ .lineDeassert 1 ∧ Instr.lineAssert 0 ≠ .ack 1
      ∧ (∀ b, Instr.lineAssert 0 ≠ .wrGcfg b) ∧ (∀ b, Instr.lineAssert 0 ≠ .wrMth b) ∧ (∀ b, Instr.lineAssert 0 ≠ .wrIe 1 b)
      ∧ (∀ b, Instr.lineAssert 0 ≠ .wrAttr 1 b) ∧ (∀ b, Instr.lineAssert 0 ≠ .wrCtl 1 b) ∧ (∀ b, Instr.lineAssert 0 ≠ .wrIp 1 b) :=
  ⟨_, rfl, fun _ => nofun, fun _ => nofun, by decide, by decide, by decide, fun _ => nofun, fun _ => nofun, fun _ => nofun,
    fun _ => nofun, fun _ => nofun, fun _ => nofun⟩

theorem witness_NoFreeValueIsTakenWithoutReservedSources :
    ∃ t, ranked.NoReserved ∧ exec (.lineDeassert 1) ranked = .next t := by
  have key : ∀ i : Fin 4, ranked.reserved i = false := by decide
  exact ⟨_, fun i h => key ⟨i, h⟩, rfl⟩

/-- Two states that differ in a line bit. -/
theorem witness_LineBitsAreHidden :
    let t : State := { ranked with src := ranked.src.map fun x => ⟨x.raw, !x.line⟩ }
    t = { ranked with src := t.src } ∧ t.src.map (·.raw) = ranked.src.map (·.raw) ∧ t ≠ ranked := by decide

end Sys2Proof.Tests
end

-- ==== Proofs: the construction parameters under each operation ====
section
/-! One lemma per update of the state: it keeps the construction parameters (`SameParams`). -/

namespace Sys2Proof.Machine

theorem SameParams.refl (s : State) : SameParams s s := ⟨rfl, rfl, rfl, rfl, rfl, rfl, rfl, rfl⟩

theorem SameParams.trans {s t u : State} (hst : SameParams s t) (htu : SameParams t u) : SameParams s u := by
  obtain ⟨base, aperture, sources, levels, cpu, trig, soft, timer⟩ := hst
  obtain ⟨base', aperture', sources', levels', cpu', trig', soft', timer'⟩ := htu
  exact ⟨base'.trans base, aperture'.trans aperture, sources'.trans sources, levels'.trans levels, cpu'.trans cpu,
    trig'.trans trig, soft'.trans soft, timer'.trans timer⟩

theorem sameParams_withReply (s : State) (r : Reply) : SameParams s (s.withReply r) := .refl s

theorem sameParams_redispatch (s : State) : SameParams s s.redispatch := .refl s

theorem sameParams_withInputs (s : State) (l : List (List Byte)) : SameParams s (s.withInputs l) := .refl s

theorem sameParams_countDraw (s : State) (id : Nat) : SameParams s (s.countDraw id) := .refl s

theorem sameParams_modifySource (s : State) (id : Nat) (f : Source → Source) : SameParams s (s.modifySource id f) := by
  simp [SameParams]

theorem sameParams_modifyRaw (s : State) (id : Nat) (f : SourceRaw → SourceRaw) : SameParams s (s.modifyRaw id f) := by
  simp [SameParams]

theorem sameParams_storeReg (s : State) (r : Reg) (b : Byte) : SameParams s (s.storeReg r b) := by
  simp [SameParams]

theorem sameParams_loadRecord (s : State) (rec : Record) (h : rec.src.length = s.numSources) :
    SameParams s (s.loadRecord rec) := by
  simp [SameParams, State.numSources_loadRecord s rec h]

end Sys2Proof.Machine
end

-- ==== Proofs: how an operation ends ====
section
/-! Everything an operation can do to the construction parameters and the delivered value, said once for `exec` and once for `step`. -/

namespace Sys2Proof.Machine

/-- How an operation other than `RESET` ends: nothing but the reply is new, or the construction parameters are kept and the
Dispatcher is re-run (43_pending_set_and_dispatch R200). -/
def QuietOrRedispatched (s t : State) : Prop :=
  (∃ r, t = s.withReply r) ∨ ∃ u, SameParams s u ∧ t = u.redispatch.withReply .nothing

theorem QuietOrRedispatched.sameParams {s t : State} (h : QuietOrRedispatched s t) : SameParams s t := by
  obtain ⟨r, rfl⟩ | ⟨u, hu, rfl⟩ := h
  · exact sameParams_withReply s r
  · exact hu.trans ((sameParams_redispatch u).trans (sameParams_withReply _ _))

theorem QuietOrRedispatched.outCurrent {s t : State} (h : QuietOrRedispatched s t) (hs : s.OutCurrent) : t.OutCurrent := by
  obtain ⟨r, rfl⟩ | ⟨u, -, rfl⟩ := h
  · exact hs
  · exact State.out_mutated u .nothing

theorem dropped_ends {s t : State} (h : dropped s = .next t) : QuietOrRedispatched s t :=
  .inl ⟨_, (dropped_next_iff s t).1 h⟩

theorem answered_ends {v : BusData} {s t : State} (h : answered v s = .next t) : QuietOrRedispatched s t :=
  .inl ⟨_, (answered_next_iff v s t).1 h⟩

theorem readRegister_ends {r : Reg} {s t : State} (h : readRegister r s = .next t) : QuietOrRedispatched s t :=
  answered_ends h

theorem writeRegister_ends {r : Reg} {b : Byte} {s t : State} (h : writeRegister r b s = .next t) :
    QuietOrRedispatched s t := by
  obtain ⟨-, ht⟩ | ⟨-, ht⟩ := (writeRegister_next_iff r b s t).1 h
  · exact .inr ⟨_, sameParams_storeReg s r b, ht⟩
  · exact .inl ⟨_, ht⟩

theorem lineEvent_ends {id : Nat} {v : Bool} {s t : State} (h : lineEvent id v s = .next t) : QuietOrRedispatched s t := by
  obtain ⟨-, ht⟩ | ⟨-, ht⟩ := (lineEvent_next_iff id v s t).1 h
  · exact .inr ⟨_, (sameParams_countDraw s id).trans (sameParams_modifySource _ id _), ht⟩
  · exact .inl ⟨_, ht⟩

theorem acknowledge_ends {id : Nat} {s t : State} (h : acknowledge id s = .next t) : QuietOrRedispatched s t := by
  obtain ⟨-, ht⟩ | ⟨-, ht⟩ := (acknowledge_next_iff id s t).1 h
  · exact .inr ⟨_, (sameParams_countDraw s id).trans (sameParams_modifyRaw _ id _), ht⟩
  · exact .inl ⟨_, ht⟩

theorem execSnapshot_ends {s t : State} (h : execSnapshot s = .next t) : QuietOrRedispatched s t :=
  .inl ⟨_, (execSnapshot_next_iff s t).1 h⟩

theorem execRestore_ends {rec : Record} {s t : State} (h : execRestore rec s = .next t) : QuietOrRedispatched s t := by
  obtain ⟨hlen, ht⟩ | ⟨-, ht⟩ := (execRestore_next_iff rec s t).1 h
  · exact .inr ⟨_, sameParams_loadRecord s rec hlen, ht⟩
  · exact .inl ⟨_, ht⟩

/-- An operation that answers a next state is an accepted `RESET`, or it ends quietly or with the Dispatcher re-run. -/
theorem exec_next_cases {i : Instr} {s t : State} (h : exec i s = .next t) :
    (∃ p, i = .reset p ∧ rejectionOf p = none ∧ t = s.construct p) ∨ QuietOrRedispatched s t := by
  cases i with
  | reset p =>
    obtain ⟨accepted, ht⟩ := (execReset_next_iff p s t).1 h
    exact .inl ⟨p, rfl, accepted, ht⟩
  | wrGcfg b => exact .inr (writeRegister_ends (r := .gcfg) (b := b) h)
  | wrMth b => exact .inr (writeRegister_ends (r := .mth) (b := b) h)
  | wrIp _ _ | wrIe _ _ | wrAttr _ _ | wrCtl _ _ => exact .inr (writeRegister_ends h)
  | rdGcfg | rdInfo | rdMth | rdIp _ | rdIe _ | rdAttr _ | rdCtl _ => exact .inr (readRegister_ends h)
  | wrInfo _ | wrDrop _ _ _ => exact .inr (dropped_ends h)
  | rdZero _ _ => exact .inr (answered_ends h)
  | lineAssert _ | lineDeassert _ => exact .inr (lineEvent_ends h)
  | ack _ => exact .inr (acknowledge_ends h)
  | snapshot => exact .inr (execSnapshot_ends h)
  | restore _ => exact .inr (execRestore_ends h)

/-- A step with no event waiting changes nothing; any other step that answers a next state is the operation its first frame decodes
to, on the state that no longer holds the frame. -/
theorem step_next_cases {s t : State} (h : step s = .next t) :
    (s.inputs = [] ∧ t = s) ∨
      ∃ frame rest i, s.inputs = frame :: rest ∧ decode s.numSources frame = .ok i ∧ exec i (s.withInputs rest) = .next t := by
  unfold step State.fetch at h
  cases hin : s.inputs with
  | nil =>
    rw [hin] at h
    cases h
    exact .inl ⟨rfl, rfl⟩
  | cons frame rest =>
    rw [hin] at h
    cases hdec : decode s.numSources frame with
    | ok i => exact .inr ⟨frame, rest, i, rfl, hdec, by simpa only [hdec] using h⟩
    | error e => simp [hdec] at h

end Sys2Proof.Machine
end

-- ==== Proofs: the pending set and its head ====
section
/-! What the pending list of 43_pending_set_and_dispatch R193 holds, and where the winner's id comes from. -/

namespace Sys2Proof.Machine

theorem mem_insertRanked (above : Nat → Nat → Bool) (a i : Nat) (l : List Nat) :
    i ∈ insertRanked above a l ↔ i = a ∨ i ∈ l := by
  induction l with
  | nil => simp [insertRanked]
  | cons b rest ih =>
    unfold insertRanked
    split
    · exact List.mem_cons
    · rw [List.mem_cons, List.mem_cons, ih, or_left_comm]

theorem mem_foldr_insertRanked (above : Nat → Nat → Bool) (i : Nat) (l : List Nat) :
    i ∈ l.foldr (insertRanked above) [] ↔ i ∈ l := by
  induction l with
  | nil => rfl
  | cons a l ih => rw [List.foldr_cons, mem_insertRanked, ih, List.mem_cons]

theorem State.mem_members (s : State) (i : Nat) : i ∈ s.members ↔ i < s.numSources ∧ s.member i = true := by
  simp [State.members]

theorem State.mem_pendingList (s : State) (i : Nat) : i ∈ s.pendingList ↔ i < s.numSources ∧ s.member i = true :=
  (mem_foldr_insertRanked s.above i s.members).trans (s.mem_members i)

theorem State.head_mem {s : State} {h : Nat} (hh : s.head = some h) : h < s.numSources ∧ s.member h = true :=
  (s.mem_pendingList h).1 (List.mem_of_head? hh)

/-- A delivery is the head at or above the threshold, with its level and its `shv` bit (43_pending_set_and_dispatch R196, R197). -/
theorem State.winner_eq_some_iff (s : State) (d : Delivery) :
    s.winner = some d ↔ ∃ h, s.head = some h ∧ s.mth ≤ s.level h ∧ d = ⟨h, s.level h, s.shv h⟩ := by
  unfold State.winner
  cases s.head with
  | none => simp
  | some h => simp [eq_comm]

theorem State.winner_of_pendingList_nil {s : State} (h : s.pendingList = []) : s.winner = none := by
  simp [State.winner, State.head, h]

/-- No source of a new controller is enabled, so its pending set is empty (10_state R37). -/
@[simp] theorem State.pendingList_construct (s : State) (p : ResetParams) : (s.construct p).pendingList = [] := by
  have noMember (i : Nat) : (s.construct p).member i = false := by
    simp [State.member, State.ie, Source.zero]
  rw [List.eq_nil_iff_forall_not_mem]
  intro i hi
  obtain ⟨-, member⟩ := (State.mem_pendingList _ i).1 hi
  rw [noMember i] at member
  exact Bool.false_ne_true member

@[simp] theorem State.winner_construct (s : State) (p : ResetParams) : (s.construct p).winner = none :=
  State.winner_of_pendingList_nil (s.pendingList_construct p)

/-- `IDW` bits hold every source id (00_scope R5). -/
theorem lt_two_pow_idWidth {N i : Nat} (h : i < N) : i < 2 ^ idWidth N := by
  unfold idWidth
  split
  · omega
  · calc i ≤ N - 1 := by omega
      _ < 2 ^ (Nat.log2 (N - 1) + 1) := Nat.lt_log2_self

end Sys2Proof.Machine
end

-- ==== Proofs: the statements of 00_scope ====
section

namespace Sys2Proof.Machine

theorem State.ParamsValid.of_sameParams {s t : State} (h : SameParams s t) (hs : s.ParamsValid) : t.ParamsValid := by
  obtain ⟨-, aperture, sources, levels, -⟩ := h
  simpa only [State.ParamsValid, aperture, sources, levels] using hs

theorem State.SrcValid.of_sameParams {s t : State} (h : SameParams s t) (hs : s.SrcValid) : t.SrcValid := by
  obtain ⟨-, -, sources, -, -, -, soft, timer⟩ := h
  simpa only [State.SrcValid, sources, soft, timer] using hs

/-- Serving an event other than `RESET` keeps the invariant. -/
theorem State.Inv.of_quietOrRedispatched {s t : State} (h : QuietOrRedispatched s t) (hs : s.Inv) : t.Inv := by
  obtain ⟨params, src, out⟩ := hs
  exact ⟨params.of_sameParams h.sameParams, src.of_sameParams h.sameParams, h.outCurrent out⟩

/-- The reserved source indices of a new controller (00_scope R5, D22). -/
theorem srcValid_construct (s : State) (p : ResetParams) (h : p.numSources ≠ 0) : (s.construct p).SrcValid := by
  simp only [State.SrcValid, State.numSources_construct, State.construct_srcSoft, State.construct_srcTimer]
  exact ⟨srcSoft_lt _ h, srcTimer_lt _ h, srcSoft_ne_srcTimer _⟩

/-- Whatever the state before it, an accepted `RESET` creates a controller that meets the invariant. -/
theorem inv_construct (s : State) (p : ResetParams) (accepted : rejectionOf p = none) : (s.construct p).Inv := by
  obtain ⟨sources, aperture, levels⟩ := (rejectionOf_none_iff p).1 accepted
  refine ⟨?_, srcValid_construct s p sources, (s.winner_construct p).symm⟩
  rw [State.ParamsValid, State.numSources_construct, State.construct_aperture, State.construct_levelBits]
  exact ⟨sources, aperture, levels⟩

theorem inv_withInputs (s : State) (l : List (List Byte)) (hs : s.Inv) : (s.withInputs l).Inv := by
  obtain ⟨params, src, out⟩ := hs
  have same := sameParams_withInputs s l
  exact ⟨params.of_sameParams same, src.of_sameParams same, out⟩

theorem exec_keeps_inv {i : Instr} {s t : State} (h : exec i s = .next t) (hs : s.Inv) : t.Inv := by
  obtain ⟨p, -, accepted, rfl⟩ | ends := exec_next_cases h
  · exact inv_construct s p accepted
  · exact hs.of_quietOrRedispatched ends

/-- Settles O54: a step serves at most one event, and every event either creates a valid controller or keeps the parameters and leaves
the delivered value current. -/
theorem everyStepKeepsTheInvariant : Obligations.EveryStepKeepsTheInvariant := by
  intro s t hs h
  obtain ⟨-, rfl⟩ | ⟨-, rest, i, -, -, hexec⟩ := step_next_cases h
  · exact hs
  · exact exec_keeps_inv hexec (inv_withInputs s rest hs)

/-- Settles O44: the winner is the head of the pending list, which holds sources of the controller alone. -/
theorem deliveredIdFitsTheOutput : Obligations.DeliveredIdFitsTheOutput := by
  intro s d h
  obtain ⟨id, hhead, -, rfl⟩ := (s.winner_eq_some_iff d).1 h
  obtain ⟨isSource, -⟩ := State.head_mem hhead
  exact ⟨isSource, lt_two_pow_idWidth isSource⟩

end Sys2Proof.Machine
end

-- ==== Proofs: a new controller (10_state section 7) ====
section
/-! What the registers of a controller just constructed decode to, and the machine's reset state as one such controller. -/

namespace Sys2Proof.Machine

@[simp] theorem State.ip_construct (s : State) (p : ResetParams) (i : Nat) : (s.construct p).ip i = false := by
  simp [State.ip, Source.zero]

@[simp] theorem State.ie_construct (s : State) (p : ResetParams) (i : Nat) : (s.construct p).ie i = false := by
  simp [State.ie, Source.zero]

@[simp] theorem State.attr_construct (s : State) (p : ResetParams) (i : Nat) : (s.construct p).attr i = 0 := by
  simp [State.attr, Source.zero]

@[simp] theorem State.ctl_construct (s : State) (p : ResetParams) (i : Nat) : (s.construct p).ctl i = 0 := by
  simp [State.ctl, Source.zero]

@[simp] theorem State.line_construct (s : State) (p : ResetParams) (i : Nat) : (s.construct p).line i = false := by
  simp [State.line, Source.zero]

@[simp] theorem State.nlbits_construct (s : State) (p : ResetParams) : (s.construct p).nlbits = 0 := by
  simp [State.nlbits]

@[simp] theorem State.pw_construct (s : State) (p : ResetParams) : (s.construct p).pw = p.levelBits := by
  simp [State.pw]

@[simp] theorem State.level_construct (s : State) (p : ResetParams) (i : Nat) : (s.construct p).level i = 0xFF := by
  simp [State.level]

theorem State.priority_construct (s : State) (p : ResetParams) (i : Nat) :
    (s.construct p).priority i = if p.levelBits = 0 then 0 else (0xFF : Byte) >>> p.levelBits := by
  simp [State.priority]

/-- The attr byte 0 selects code 0 of the `TRIG_DECODE` the hardware had before (40_attribute_decoder R124). -/
theorem State.trigger_construct (s : State) (p : ResetParams) (i : Nat) : (s.construct p).trigger i = s.trig.code0 := by
  simp [State.trigger, State.trigCode, TrigTable.decode]

@[simp] theorem State.shv_construct (s : State) (p : ResetParams) (i : Nat) : (s.construct p).shv i = false := by
  simp [State.shv]

@[simp] theorem State.member_construct (s : State) (p : ResetParams) (i : Nat) : (s.construct p).member i = false := by
  simp [State.member]

/-- The operands of the construction that creates the machine's reset state (log 4). -/
def resetOperands : ResetParams := ⟨Config.base, Config.aperture, Config.numSources, Config.levelBits, Config.cpu⟩

theorem State.reset_eq_construct : State.reset = State.reset.construct resetOperands := rfl

/-- Settles O46: the decoded attributes of a source whose four registers are 0 under a global config byte that is 0. -/
theorem derivedStateAfterReset : Obligations.DerivedStateAfterReset := by
  intro s t p h i _
  obtain ⟨-, rfl⟩ := (execReset_next_iff p s t).1 h
  exact ⟨s.nlbits_construct p, s.pw_construct p, s.level_construct p i, s.priority_construct p i,
    s.ie_construct p i, s.trigger_construct p i, s.shv_construct p i, s.member_construct p i⟩

/-- Settles O48: the reset state is a new controller with 32 sources and 6 level and priority bits. -/
theorem resetStateIsZeroed : Obligations.ResetStateIsZeroed := by
  unfold Obligations.ResetStateIsZeroed
  rw [State.reset_eq_construct]
  refine ⟨rfl, rfl, rfl, State.numSources_construct _ _, rfl, fun i _ => ?_⟩
  exact ⟨State.ip_construct _ _ i, State.ie_construct _ _ i, State.attr_construct _ _ i, State.ctl_construct _ _ i,
    State.line_construct _ _ i⟩

end Sys2Proof.Machine
end

-- ==== Proofs: what is the same between two events and between two resets ====
section

namespace Sys2Proof.Machine

/-- The info word is a function of two construction parameters (10_state R22). -/
theorem SameParams.info {s t : State} (h : SameParams s t) : t.info = s.info := by
  obtain ⟨-, -, sources, levels, -⟩ := h
  rw [State.info, State.info, sources, levels]

/-- Settles O57: an operation that is no `RESET` ends quietly or with the Dispatcher re-run, and keeps the parameters either way. -/
theorem parametersAreFixedBetweenResets : Obligations.ParametersAreFixedBetweenResets := by
  intro i s t noReset h
  obtain ⟨p, isReset, -⟩ | ends := exec_next_cases h
  · exact absurd isReset (noReset p)
  · exact ⟨ends.sameParams, ends.sameParams.info⟩

/-- Settles O2: there is no frame to fetch. -/
theorem stepWithoutEventChangesNothing : Obligations.StepWithoutEventChangesNothing := by
  intro s h
  simp only [step, State.fetch, h]

end Sys2Proof.Machine
end

-- ==== Proofs: what the registers determine ====
section
/-! Reads, decoded attributes, pending list and winner are functions of the registers: states that agree on these agree on those. -/

namespace Sys2Proof.Machine

theorem State.above_congr {s t : State} (level : ∀ i, t.level i = s.level i) (priority : ∀ i, t.priority i = s.priority i)
    (a b : Nat) : t.above a b = s.above a b := by
  simp only [State.above, level, priority]

/-- The pending list depends on the members and their order alone (43_pending_set_and_dispatch R193). -/
theorem State.pendingList_congr {s t : State} (sources : t.numSources = s.numSources)
    (member : ∀ i, t.member i = s.member i) (above : ∀ a b, t.above a b = s.above a b) : t.pendingList = s.pendingList := by
  have sameMember : t.member = s.member := funext member
  have sameAbove : t.above = s.above := funext₂ above
  simp only [State.pendingList, State.members, sources, sameMember, sameAbove]

/-- The winner depends on the pending list, the threshold and what the output triple is made of (43_pending_set_and_dispatch R196, R197). -/
theorem State.winner_congr {s t : State} (pending : t.pendingList = s.pendingList) (mth : t.mth = s.mth)
    (level : ∀ i, t.level i = s.level i) (shv : ∀ i, t.shv i = s.shv i) : t.winner = s.winner := by
  simp only [State.winner, State.head, pending, mth, level, shv]

/-- Two instances of equal `N` and `L` hold the same registers; the line bits, which are no registers, may differ. -/
structure SameRegisters (s t : State) : Prop where
  sources : t.numSources = s.numSources
  levelBits : t.levelBits = s.levelBits
  gc : t.gc = s.gc
  mth : t.mth = s.mth
  raw : ∀ i, (t.source i).raw = (s.source i).raw

namespace SameRegisters

variable {s t : State}

theorem ip (h : SameRegisters s t) (i : Nat) : t.ip i = s.ip i := congrArg SourceRaw.ip (h.raw i)

theorem ie (h : SameRegisters s t) (i : Nat) : t.ie i = s.ie i := congrArg SourceRaw.ie (h.raw i)

theorem attr (h : SameRegisters s t) (i : Nat) : t.attr i = s.attr i := congrArg SourceRaw.attr (h.raw i)

theorem ctl (h : SameRegisters s t) (i : Nat) : t.ctl i = s.ctl i := congrArg SourceRaw.ctl (h.raw i)

theorem level (h : SameRegisters s t) (i : Nat) : t.level i = s.level i :=
  State.level_congr i h.gc h.levelBits (h.ctl i)

theorem priority (h : SameRegisters s t) (i : Nat) : t.priority i = s.priority i :=
  State.priority_congr i h.gc h.levelBits (h.ctl i)

theorem shv (h : SameRegisters s t) (i : Nat) : t.shv i = s.shv i := by
  rw [State.shv, State.shv, h.attr i]

theorem member (h : SameRegisters s t) (i : Nat) : t.member i = s.member i := by
  rw [State.member, State.member, h.ie i, h.ip i]

theorem pendingList (h : SameRegisters s t) : t.pendingList = s.pendingList :=
  State.pendingList_congr h.sources h.member (State.above_congr h.level h.priority)

theorem winner (h : SameRegisters s t) : t.winner = s.winner :=
  State.winner_congr h.pendingList h.mth h.level h.shv

theorem readReg (h : SameRegisters s t) (r : Reg) : t.readReg r = s.readReg r := by
  cases r with
  | gcfg => simp only [State.readReg, h.gc]
  | info => simp only [State.readReg, State.info, h.levelBits, h.sources]
  | mth => simp only [State.readReg, h.mth]
  | ip id => simp only [State.readReg, h.ip id]
  | ie id => simp only [State.readReg, h.ie id]
  | attr id => simp only [State.readReg, h.attr id]
  | ctl id => simp only [State.readReg, h.ctl id]

theorem memRead (h : SameRegisters s t) (off : Nat) (n : Width) : t.memRead off n = s.memRead off n := by
  simp only [State.memRead, h.sources, h.readReg]

end SameRegisters

/-- The four registers of a source are an entry of a snapshot record's `src` (30_encoding R108). -/
theorem State.raw_source (s : State) (i : Nat) : (s.source i).raw = (s.src.map (·.raw)).getD i Source.zero.raw :=
  (List.getD_map ..).symm

theorem sameRegisters_of_map_raw {s t : State} (same : t = { s with src := t.src })
    (raws : t.src.map (·.raw) = s.src.map (·.raw)) : SameRegisters s t where
  sources := by simpa only [State.numSources, List.length_map] using congrArg List.length raws
  levelBits := by rw [same]
  gc := by rw [same]
  mth := by rw [same]
  raw i := by rw [State.raw_source, State.raw_source, raws]

/-- Settles O60: reads, pending list, winner and record are functions of the registers. -/
theorem lineBitsAreHidden : Obligations.LineBitsAreHidden := by
  intro s t same raws
  have regs := sameRegisters_of_map_raw same raws
  refine ⟨regs.memRead, regs.winner, regs.pendingList, ?_⟩
  rw [State.record, State.record, regs.gc, regs.mth, raws]

end Sys2Proof.Machine
end

-- ==== Proofs: the writers of each register ====
section
/-! Which register each operation can write (10_state sections 2 to 4), said once for `exec`. A register is compared as a read shows it
(`State.readReg`), which shows all of it. -/

namespace Sys2Proof.Machine

/-! ### A read shows the whole register -/

theorem zeroExtended_inj {a b : Byte} : a.setWidth 64 = b.setWidth 64 ↔ a = b := by
  refine ⟨fun h => ?_, congrArg _⟩
  simpa [BitVec.setWidth_setWidth_of_le] using congrArg (BitVec.setWidth 8) h

theorem byteOfBit_inj {a b : Bool} : byteOfBit a = byteOfBit b ↔ a = b := by
  refine ⟨fun h => ?_, congrArg _⟩
  simpa using congrArg bitOfByte h

theorem readReg_gcfg_iff {s t : State} : t.readReg .gcfg = s.readReg .gcfg ↔ t.gc = s.gc := zeroExtended_inj

theorem readReg_mth_iff {s t : State} : t.readReg .mth = s.readReg .mth ↔ t.mth = s.mth := zeroExtended_inj

theorem readReg_ip_iff {s t : State} {j : Nat} : t.readReg (.ip j) = s.readReg (.ip j) ↔ t.ip j = s.ip j :=
  zeroExtended_inj.trans byteOfBit_inj

theorem readReg_ie_iff {s t : State} {j : Nat} : t.readReg (.ie j) = s.readReg (.ie j) ↔ t.ie j = s.ie j :=
  zeroExtended_inj.trans byteOfBit_inj

theorem readReg_attr_iff {s t : State} {j : Nat} : t.readReg (.attr j) = s.readReg (.attr j) ↔ t.attr j = s.attr j :=
  zeroExtended_inj

theorem readReg_ctl_iff {s t : State} {j : Nat} : t.readReg (.ctl j) = s.readReg (.ctl j) ↔ t.ctl j = s.ctl j :=
  zeroExtended_inj

/-! ### What an update of a source leaves unchanged -/

/-- A part of source `j` that the update of source `id` keeps if `j` is `id` is unchanged; there need be no source `id`. -/
theorem State.source_modifySource_keeps {α : Type} (g : Source → α) {s : State} {id j : Nat} {f : Source → Source}
    (kept : j = id → ∀ x, g (f x) = g x) : g ((s.modifySource id f).source j) = g (s.source j) := by
  by_cases hj : j = id
  · subst hj
    by_cases isSource : j < s.numSources
    · rw [State.source_modifySource_same s j f isSource, kept rfl]
    · have absent : s.numSources ≤ j := Nat.not_lt.mp isSource
      rw [State.source_eq_zero s j absent, State.source_eq_zero _ j (by simpa using absent)]
  · rw [State.source_modifySource_other s id j f hj]

/-- A register that the update of source `id` keeps if it is one of this source's reads as before. -/
theorem State.readReg_modifySource {s : State} {id : Nat} {f : Source → Source} {r : Reg}
    (ip : r = .ip id → ∀ x, (f x).raw.ip = x.raw.ip) (ie : r = .ie id → ∀ x, (f x).raw.ie = x.raw.ie)
    (attr : r = .attr id → ∀ x, (f x).raw.attr = x.raw.attr) (ctl : r = .ctl id → ∀ x, (f x).raw.ctl = x.raw.ctl) :
    (s.modifySource id f).readReg r = s.readReg r := by
  cases r with
  | gcfg | mth => rfl
  | info => simp only [State.readReg, State.info, State.modifySource_levelBits, State.numSources_modifySource]
  | ip j => exact readReg_ip_iff.2 (State.source_modifySource_keeps (·.raw.ip) fun hj => ip (congrArg Reg.ip hj))
  | ie j => exact readReg_ie_iff.2 (State.source_modifySource_keeps (·.raw.ie) fun hj => ie (congrArg Reg.ie hj))
  | attr j => exact readReg_attr_iff.2 (State.source_modifySource_keeps (·.raw.attr) fun hj => attr (congrArg Reg.attr hj))
  | ctl j => exact readReg_ctl_iff.2 (State.source_modifySource_keeps (·.raw.ctl) fun hj => ctl (congrArg Reg.ctl hj))

/-- A store of one register leaves every other register as it was. -/
theorem State.readReg_storeReg_of_ne {s : State} {q r : Reg} {b : Byte} (h : q ≠ r) :
    (s.storeReg q b).readReg r = s.readReg r := by
  have apart {p : Prop} (e : r = q) : p := absurd e.symm h
  cases q with
  | gcfg => cases r with
    | gcfg => exact apart rfl
    | _ => rfl
  | info => rfl
  | mth => cases r with
    | mth => exact apart rfl
    | _ => rfl
  | ip id => exact State.readReg_modifySource apart (fun _ _ => rfl) (fun _ _ => rfl) (fun _ _ => rfl)
  | ie id => exact State.readReg_modifySource (fun _ _ => rfl) apart (fun _ _ => rfl) (fun _ _ => rfl)
  | attr id => exact State.readReg_modifySource (fun _ _ => rfl) (fun _ _ => rfl) apart (fun _ _ => rfl)
  | ctl id => exact State.readReg_modifySource (fun _ _ => rfl) (fun _ _ => rfl) (fun _ _ => rfl) apart

/-! ### What the end of a call and a draw leave unchanged -/

@[simp] theorem State.readReg_withReply (s : State) (v : Reply) (r : Reg) : (s.withReply v).readReg r = s.readReg r := by
  cases r <;> rfl

@[simp] theorem State.readReg_redispatch (s : State) (r : Reg) : s.redispatch.readReg r = s.readReg r := by
  cases r <;> rfl

@[simp] theorem State.readReg_countDraw (s : State) (id : Nat) (r : Reg) : (s.countDraw id).readReg r = s.readReg r := by
  cases r <;> rfl

@[simp] theorem State.line_withReply (s : State) (v : Reply) (j : Nat) : (s.withReply v).line j = s.line j := rfl
@[simp] theorem State.line_redispatch (s : State) (j : Nat) : s.redispatch.line j = s.line j := rfl
@[simp] theorem State.line_countDraw (s : State) (id j : Nat) : (s.countDraw id).line j = s.line j := rfl

/-! ### What a call writes -/

theorem writeRegister_readReg_of_ne {q r : Reg} {b : Byte} {s t : State} (h : writeRegister q b s = .next t) (hr : q ≠ r) :
    t.readReg r = s.readReg r := by
  obtain ⟨-, rfl⟩ | ⟨-, rfl⟩ := (writeRegister_next_iff q b s t).1 h
  · simpa using State.readReg_storeReg_of_ne hr
  · simp

theorem lineEvent_readReg_of_ne {id : Nat} {v : Bool} {r : Reg} {s t : State} (h : lineEvent id v s = .next t)
    (hr : .ip id ≠ r) : t.readReg r = s.readReg r := by
  obtain ⟨-, rfl⟩ | ⟨-, rfl⟩ := (lineEvent_next_iff id v s t).1 h
  · rw [State.readReg_withReply, State.readReg_redispatch, ← s.readReg_countDraw id]
    exact State.readReg_modifySource (fun e => absurd e.symm hr) (fun _ _ => rfl) (fun _ _ => rfl) (fun _ _ => rfl)
  · simp

theorem acknowledge_readReg_of_ne {id : Nat} {r : Reg} {s t : State} (h : acknowledge id s = .next t)
    (hr : .ip id ≠ r) : t.readReg r = s.readReg r := by
  obtain ⟨-, rfl⟩ | ⟨-, rfl⟩ := (acknowledge_next_iff id s t).1 h
  · rw [State.readReg_withReply, State.readReg_redispatch, ← s.readReg_countDraw id]
    exact State.readReg_modifySource (fun e => absurd e.symm hr) (fun _ _ => rfl) (fun _ _ => rfl) (fun _ _ => rfl)
  · simp

theorem State.line_storeReg (s : State) (r : Reg) (b : Byte) (j : Nat) : (s.storeReg r b).line j = s.line j := by
  cases r with
  | gcfg | info | mth => rfl
  | ip _ | ie _ | attr _ | ctl _ => exact State.source_modifySource_keeps Source.line fun _ _ => rfl

/-- `RESTORE` writes no line bit (44_snapshot_restore R211, D9). -/
theorem State.line_loadRecord (s : State) (rec : Record) (h : rec.src.length = s.numSources) (j : Nat) :
    (s.loadRecord rec).line j = s.line j := by
  by_cases isSource : j < s.numSources
  · rw [State.line, State.source_loadRecord s rec h j isSource, State.line]
  · have absent : s.numSources ≤ j := Nat.not_lt.mp isSource
    have absent' : (s.loadRecord rec).numSources ≤ j := (State.numSources_loadRecord s rec h).trans_le absent
    rw [State.line, State.line, State.source_eq_zero s j absent, State.source_eq_zero _ j absent']

theorem writeRegister_line {r : Reg} {b : Byte} {s t : State} (h : writeRegister r b s = .next t) (j : Nat) :
    t.line j = s.line j := by
  obtain ⟨-, rfl⟩ | ⟨-, rfl⟩ := (writeRegister_next_iff r b s t).1 h
  · exact s.line_storeReg r b j
  · rfl

theorem lineEvent_line_of_ne {id j : Nat} {v : Bool} {s t : State} (h : lineEvent id v s = .next t) (hj : j ≠ id) :
    t.line j = s.line j := by
  obtain ⟨-, rfl⟩ | ⟨-, rfl⟩ := (lineEvent_next_iff id v s t).1 h
  · rw [State.line_withReply, State.line_redispatch, ← s.line_countDraw id]
    exact State.source_modifySource_keeps Source.line fun e => absurd e hj
  · rfl

theorem acknowledge_line {id : Nat} {s t : State} (h : acknowledge id s = .next t) (j : Nat) : t.line j = s.line j := by
  obtain ⟨-, rfl⟩ | ⟨-, rfl⟩ := (acknowledge_next_iff id s t).1 h
  · rw [State.line_withReply, State.line_redispatch, ← s.line_countDraw id]
    exact State.source_modifySource_keeps Source.line fun _ _ => rfl
  · rfl

theorem execRestore_line {rec : Record} {s t : State} (h : execRestore rec s = .next t) (j : Nat) : t.line j = s.line j := by
  obtain ⟨hlen, rfl⟩ | ⟨-, rfl⟩ := (execRestore_next_iff rec s t).1 h
  · exact s.line_loadRecord rec hlen j
  · rfl

/-! ### What an operation writes -/

/-- The one register that an operation can write; `RESET` and `RESTORE`, which write all of them, are left out. -/
def writtenReg : Instr → Option Reg
  | .wrGcfg _ => some .gcfg
  | .wrMth _ => some .mth
  | .wrIp id _ | .lineAssert id | .lineDeassert id | .ack id => some (.ip id)
  | .wrIe id _ => some (.ie id)
  | .wrAttr id _ => some (.attr id)
  | .wrCtl id _ => some (.ctl id)
  | _ => none

theorem writtenReg_eq_gcfg_iff (i : Instr) : writtenReg i = some .gcfg ↔ ∃ b, i = .wrGcfg b := by
  cases i <;> simp [writtenReg]

theorem writtenReg_eq_mth_iff (i : Instr) : writtenReg i = some .mth ↔ ∃ b, i = .wrMth b := by
  cases i <;> simp [writtenReg]

theorem writtenReg_eq_ie_iff (i : Instr) (j : Nat) : writtenReg i = some (.ie j) ↔ ∃ b, i = .wrIe j b := by
  cases i <;> simp [writtenReg]

theorem writtenReg_eq_attr_iff (i : Instr) (j : Nat) : writtenReg i = some (.attr j) ↔ ∃ b, i = .wrAttr j b := by
  cases i <;> simp [writtenReg]

theorem writtenReg_eq_ctl_iff (i : Instr) (j : Nat) : writtenReg i = some (.ctl j) ↔ ∃ b, i = .wrCtl j b := by
  cases i <;> simp [writtenReg]

theorem writtenReg_eq_ip_iff (i : Instr) (j : Nat) :
    writtenReg i = some (.ip j) ↔ (∃ b, i = .wrIp j b) ∨ i = .lineAssert j ∨ i = .lineDeassert j ∨ i = .ack j := by
  cases i <;> simp [writtenReg]

/-- `RESET` and `RESTORE` apart, an operation leaves every register but its own as it was. -/
theorem exec_readReg_of_ne {i : Instr} {s t : State} {r : Reg} (noReset : ∀ p, i ≠ .reset p)
    (noRestore : ∀ rec, i ≠ .restore rec) (h : exec i s = .next t) (hr : writtenReg i ≠ some r) :
    t.readReg r = s.readReg r := by
  have apart {q : Reg} (hq : writtenReg i = some q) : q ≠ r := fun e => hr (hq.trans (congrArg some e))
  cases i with
  | reset p => exact absurd rfl (noReset p)
  | restore rec => exact absurd rfl (noRestore rec)
  | wrGcfg b => exact writeRegister_readReg_of_ne (q := .gcfg) (b := b) h (apart rfl)
  | wrMth b => exact writeRegister_readReg_of_ne (q := .mth) (b := b) h (apart rfl)
  | wrIp _ _ | wrIe _ _ | wrAttr _ _ | wrCtl _ _ => exact writeRegister_readReg_of_ne h (apart rfl)
  | lineAssert _ | lineDeassert _ => exact lineEvent_readReg_of_ne h (apart rfl)
  | ack _ => exact acknowledge_readReg_of_ne h (apart rfl)
  | rdGcfg | rdInfo | rdMth | rdIp _ | rdIe _ | rdAttr _ | rdCtl _ | wrInfo _ | wrDrop _ _ _ | rdZero _ _ | snapshot =>
    cases h
    rfl

/-- `RESET` apart, the line events on a source alone write its line bit. -/
theorem exec_line_of_ne {i : Instr} {s t : State} {j : Nat} (noReset : ∀ p, i ≠ .reset p) (h : exec i s = .next t)
    (noAssert : i ≠ .lineAssert j) (noDeassert : i ≠ .lineDeassert j) : t.line j = s.line j := by
  cases i with
  | reset p => exact absurd rfl (noReset p)
  | restore rec => exact execRestore_line h j
  | wrGcfg b => exact writeRegister_line (r := .gcfg) (b := b) h j
  | wrMth b => exact writeRegister_line (r := .mth) (b := b) h j
  | wrIp _ _ | wrIe _ _ | wrAttr _ _ | wrCtl _ _ => exact writeRegister_line h j
  | lineAssert id => exact lineEvent_line_of_ne h fun e => noAssert (congrArg Instr.lineAssert e.symm)
  | lineDeassert id => exact lineEvent_line_of_ne h fun e => noDeassert (congrArg Instr.lineDeassert e.symm)
  | ack _ => exact acknowledge_line h j
  | rdGcfg | rdInfo | rdMth | rdIp _ | rdIe _ | rdAttr _ | rdCtl _ | wrInfo _ | wrDrop _ _ _ | rdZero _ _ | snapshot =>
    cases h
    rfl

/-- Settles O58: an operation leaves every register but its own as it was, and each register is the own one of the operations listed. -/
theorem eachRegisterHasItsWriters : Obligations.EachRegisterHasItsWriters := by
  intro i s t j noReset h
  refine ⟨exec_line_of_ne noReset h, fun noRestore => ?_⟩
  have kept {r : Reg} (hr : writtenReg i ≠ some r) : t.readReg r = s.readReg r := exec_readReg_of_ne noReset noRestore h hr
  refine ⟨fun gcfg => readReg_gcfg_iff.1 (kept ?_), fun mth => readReg_mth_iff.1 (kept ?_),
    fun ie => readReg_ie_iff.1 (kept ?_), fun attr => readReg_attr_iff.1 (kept ?_),
    fun ctl => readReg_ctl_iff.1 (kept ?_), fun ip rise fall ack => readReg_ip_iff.1 (kept ?_)⟩
  · simpa only [ne_eq, writtenReg_eq_gcfg_iff, not_exists] using gcfg
  · simpa only [ne_eq, writtenReg_eq_mth_iff, not_exists] using mth
  · simpa only [ne_eq, writtenReg_eq_ie_iff, not_exists] using ie
  · simpa only [ne_eq, writtenReg_eq_attr_iff, not_exists] using attr
  · simpa only [ne_eq, writtenReg_eq_ctl_iff, not_exists] using ctl
  · simpa only [ne_eq, writtenReg_eq_ip_iff, not_or, not_exists] using ⟨ip, rise, fall, ack⟩

end Sys2Proof.Machine
end

-- ==== Proofs: serving a waiting event ====
section

namespace Sys2Proof.Machine

/-- A waiting frame that decodes to an operation is taken off the list and the operation is run (20_memory R68, log 2). -/
theorem step_eq_exec {s : State} {frame : List Byte} {rest : List (List Byte)} {i : Instr} (waiting : s.inputs = frame :: rest)
    (decodes : decode s.numSources frame = .ok i) : step s = exec i (s.withInputs rest) := by
  simp only [step, State.fetch, waiting, decodes]

/-- Settles O1: fetching a frame takes it off the list of waiting events and does nothing else. -/
theorem stepRunsTheDecodedEvent : Obligations.StepRunsTheDecodedEvent :=
  fun _ _ _ _ waiting decodes => step_eq_exec waiting decodes

end Sys2Proof.Machine
end

-- ==== Proofs: the address map (20_memory R61, R62) ====
section
/-! A register and its one access `(offset, width)` determine each other. -/

namespace Sys2Proof

theorem Reg.width_of_ne_info {r : Reg} (h : r ≠ .info) : r.width = .one := by
  cases r with
  | info => exact absurd rfl h
  | gcfg | mth | ip _ | ie _ | attr _ | ctl _ => rfl

/-- An offset in the source area is that of the register it selects (30_encoding R102). -/
theorem offset_sourceRegAt {off : Nat} (h : 0x1000 ≤ off) : (sourceRegAt off).offset = off := by
  have field : ∃ id, off = 0x1000 + 4 * id + 0 ∨ off = 0x1000 + 4 * id + 1 ∨ off = 0x1000 + 4 * id + 2 ∨ off = 0x1000 + 4 * id + 3 :=
    ⟨(off - 0x1000) / 4, by omega⟩
  obtain ⟨id, rfl | rfl | rfl | rfl⟩ := field
  · rw [sourceRegAt_ip, Reg.offset]
  · rw [sourceRegAt_ie, Reg.offset]
  · rw [sourceRegAt_attr, Reg.offset]
  · rw [sourceRegAt_ctl, Reg.offset]

theorem width_sourceRegAt (off : Nat) : (sourceRegAt off).width = .one := by
  unfold sourceRegAt
  split <;> rfl

/-- No access but a register's own reaches it. -/
theorem access_of_regAt {N off : Nat} {n : Width} {r : Reg} (h : regAt N off n = some r) : (off, n) = (r.offset, r.width) := by
  cases n with
  | one =>
    simp only [regAt] at h
    split_ifs at h with gcfg mth source <;> obtain rfl := Option.some.inj h
    · exact Prod.ext gcfg rfl
    · exact Prod.ext mth rfl
    · rw [offset_sourceRegAt source.1, width_sourceRegAt]
  | four =>
    simp only [regAt] at h
    split_ifs at h with info
    obtain rfl := Option.some.inj h
    exact Prod.ext info rfl
  | two | eight => cases h

/-- Each of the four offsets of a source of the controller selects its register. -/
theorem regAt_source {N id field : Nat} (isSource : id < N) (small : field < 4) :
    regAt N (0x1000 + 4 * id + field) .one = some (sourceRegAt (0x1000 + 4 * id + field)) :=
  regAt_of_range _ _ (by omega) (by omega)

/-- A register of the controller is reached by its own access. -/
theorem Machine.regAt_access {s : Machine.State} {r : Reg} (h : s.hasReg r = true) :
    regAt s.numSources r.offset r.width = some r := by
  cases r with
  | gcfg | info | mth => rfl
  | ip id => exact (regAt_source (of_decide_eq_true h) (by decide)).trans (congrArg some (sourceRegAt_ip id))
  | ie id => exact (regAt_source (of_decide_eq_true h) (by decide)).trans (congrArg some (sourceRegAt_ie id))
  | attr id => exact (regAt_source (of_decide_eq_true h) (by decide)).trans (congrArg some (sourceRegAt_attr id))
  | ctl id => exact (regAt_source (of_decide_eq_true h) (by decide)).trans (congrArg some (sourceRegAt_ctl id))

end Sys2Proof
end

-- ==== Proofs: MMIO reads ====
section

namespace Sys2Proof.Machine

/-- Whatever row of 30_encoding R104 a read selects, it returns `MemRead(off, n)` (20_memory R63, R66). -/
theorem exec_readAt (s : State) (off : Nat) (n : Width) :
    exec (readAt s.numSources off n) s = answered (s.memRead off n) s := by
  unfold readAt State.memRead
  cases regAt s.numSources off n with
  | none => rfl
  | some r => cases r <;> rfl

theorem step_readFrame {s : State} {off : Nat} {n : Width} {rest : List (List Byte)} (waiting : s.inputs = readFrame off n :: rest) :
    step s = .next ((s.withInputs rest).withReply (.data (s.memRead off n))) := by
  rw [step_eq_exec waiting (decode_readFrame _ off n)]
  exact exec_readAt (s.withInputs rest) off n

/-- Settles O7: the first read changes the list of waiting events and the reply, and no read depends on either. -/
theorem readReturnsMemReadAndIsIdempotent : Obligations.ReadReturnsMemReadAndIsIdempotent := by
  intro s off n rest waiting
  exact ⟨_, _, step_readFrame waiting, step_readFrame rfl, rfl, rfl⟩

end Sys2Proof.Machine
end

-- ==== Proofs: byte writes of registers ====
section
/-! A byte write reaches the one register of its access; that register reads back what it stores of the byte, every other register
reads as before. -/

namespace Sys2Proof.Machine

/-- A byte write at the offset of a register writes this register (20_memory R65, R67). -/
theorem exec_writeAt_of_regAt {N off : Nat} {r : Reg} {data : BusData} (s : State) (h : regAt N off .one = some r) (notInfo : r ≠ .info) :
    exec (writeAt N off .one data) s = writeRegister r (data.setWidth 8) s := by
  unfold writeAt
  rw [h]
  cases r with
  | info => exact absurd rfl notInfo
  | gcfg | mth | ip _ | ie _ | attr _ | ctl _ => rfl

/-- The byte in `data[7:0]` of a write is the byte written (20_memory R65). -/
theorem setWidth_ofNat_toNat (b : Byte) : (BitVec.ofNat 64 b.toNat).setWidth 8 = b := by
  rw [BitVec.ofNat_toNat, BitVec.setWidth_setWidth_of_le _ (by decide), BitVec.setWidth_eq]

theorem step_writeRegFrame {s : State} {r : Reg} {b : Byte} {rest : List (List Byte)} (notInfo : r ≠ .info) (present : s.hasReg r = true)
    (waiting : s.inputs = writeRegFrame r b.toNat :: rest) : step s = writeRegister r b (s.withInputs rest) := by
  have width := Reg.width_of_ne_info notInfo
  have reached := regAt_access present
  rw [width] at reached
  rw [writeRegFrame, width] at waiting
  rw [step_eq_exec waiting (decode_writeFrame _ _ .one _ b.isLt), exec_writeAt_of_regAt _ reached notInfo, setWidth_ofNat_toNat]

/-- What a byte register holds of a byte written to it: bit 0 of a pending or enable byte (D5), all of any other (D6). -/
def storedByte (r : Reg) (b : Byte) : Byte :=
  match r with
  | .ip _ | .ie _ => b &&& 1
  | _ => b

theorem byteOfBit_getLsbD_zero (b : Byte) : byteOfBit (b.getLsbD 0) = b &&& 1 := by
  have low : b &&& 1 = (BitVec.ofBool (b.getLsbD 0)).setWidth 8 := BitVec.and_one_eq_setWidth_ofBool_getLsbD
  rw [low]
  cases b.getLsbD 0 <;> rfl

/-- A byte stored in a register of the controller reads back. -/
theorem State.readReg_storeReg_same {s : State} {r : Reg} (b : Byte) (notInfo : r ≠ .info) (present : s.hasReg r = true) :
    (s.storeReg r b).readReg r = (storedByte r b).setWidth 64 := by
  have stored {id : Nat} (f : SourceRaw → SourceRaw) (isSource : id < s.numSources) :
      ((s.modifyRaw id f).source id).raw = f (s.source id).raw :=
    congrArg Source.raw (s.source_modifyRaw_same id f isSource)
  cases r with
  | gcfg | mth => rfl
  | info => exact absurd rfl notInfo
  | ip id =>
    rw [storedByte, ← byteOfBit_getLsbD_zero, State.readReg, State.ip, State.storeReg, stored _ (of_decide_eq_true present)]
  | ie id =>
    rw [storedByte, ← byteOfBit_getLsbD_zero, State.readReg, State.ie, State.storeReg, stored _ (of_decide_eq_true present)]
  | attr id => simp only [storedByte, State.readReg, State.attr, State.storeReg, stored _ (of_decide_eq_true present)]
  | ctl id => simp only [storedByte, State.readReg, State.ctl, State.storeReg, stored _ (of_decide_eq_true present)]

/-- Two states that differ in one register at most differ in reads of its own access at most. -/
theorem sameReadsExcept_of_readReg {s t : State} {r : Reg} (sources : t.numSources = s.numSources)
    (others : ∀ q, r ≠ q → t.readReg q = s.readReg q) : SameReadsExcept r.offset r.width s t := by
  intro off n elsewhere
  unfold State.memRead
  rw [sources]
  cases reached : regAt s.numSources off n with
  | none => rfl
  | some q =>
    apply others
    rintro rfl
    exact elsewhere (access_of_regAt reached)

theorem State.memRead_access {s : State} {r : Reg} (present : s.hasReg r = true) : s.memRead r.offset r.width = s.readReg r := by
  simp only [State.memRead, regAt_access present]

theorem State.hasReg_congr {s t : State} (sources : t.numSources = s.numSources) (r : Reg) : t.hasReg r = s.hasReg r := by
  cases r <;> simp only [State.hasReg, sources]

theorem writeRegister_of_hasReg {s : State} {r : Reg} (b : Byte) (present : s.hasReg r = true) :
    writeRegister r b s = .next ((s.storeReg r b).redispatch.withReply .nothing) :=
  (writeRegister_next_iff r b s _).2 (.inl ⟨present, rfl⟩)

theorem writeRegister_numSources {r : Reg} {b : Byte} {s t : State} (h : writeRegister r b s = .next t) :
    t.numSources = s.numSources := by
  obtain ⟨-, -, sources, -⟩ := (writeRegister_ends h).sameParams
  exact sources

/-- The read of a register after a write of it returns what the register stores of the byte. -/
theorem writeRegister_memRead_same {r : Reg} {b : Byte} {s t : State} (h : writeRegister r b s = .next t) (notInfo : r ≠ .info)
    (present : s.hasReg r = true) : t.memRead r.offset r.width = (storedByte r b).setWidth 64 := by
  rw [State.memRead_access ((State.hasReg_congr (writeRegister_numSources h) r).trans present)]
  rw [writeRegister_of_hasReg b present] at h
  cases h
  rw [State.readReg_withReply, State.readReg_redispatch, State.readReg_storeReg_same b notInfo present]

/-- A write of a register shows in no read but the register's own. -/
theorem writeRegister_sameReadsExcept {r : Reg} {b : Byte} {s t : State} (h : writeRegister r b s = .next t) :
    SameReadsExcept r.offset r.width s t :=
  sameReadsExcept_of_readReg (writeRegister_numSources h) fun _ hq => writeRegister_readReg_of_ne h hq

/-- Settles O8: the write stores in the one register of its access and re-runs the Dispatcher, which no read shows. -/
theorem registerWriteReadsBackAndIsLocal : Obligations.RegisterWriteReadsBackAndIsLocal := by
  intro s r b rest notInfo present waiting
  have present' : (s.withInputs rest).hasReg r = true := (State.hasReg_congr rfl r).trans present
  have written := writeRegister_of_hasReg b present'
  have readBack := writeRegister_memRead_same written notInfo present'
  have elsewhere := writeRegister_sameReadsExcept written
  rw [Reg.width_of_ne_info notInfo] at readBack elsewhere
  refine ⟨_, (step_writeRegFrame notInfo present waiting).trans written, readBack.trans ?_, elsewhere,
    (sameParams_withInputs s rest).trans (writeRegister_ends written).sameParams, fun j => writeRegister_line written j,
    State.out_mutated _ _, rfl, State.storeReg_inputs _ r b, State.storeReg_draws _ r b⟩
  cases r <;> rfl

end Sys2Proof.Machine
end

-- ==== Proofs: the offset decoder's rows (30_encoding R104) ====
section
/-! Which register each access selects, and which operation each register selects on the read and on the write port. -/

namespace Sys2Proof

/-! ### The four registers of a source (30_encoding R102) -/

theorem regAt_ip {N id : Nat} (isSource : id < N) : regAt N (0x1000 + 4 * id + 0) .one = some (.ip id) :=
  (regAt_source isSource (by decide)).trans (congrArg some (sourceRegAt_ip id))

theorem regAt_ie {N id : Nat} (isSource : id < N) : regAt N (0x1000 + 4 * id + 1) .one = some (.ie id) :=
  (regAt_source isSource (by decide)).trans (congrArg some (sourceRegAt_ie id))

theorem regAt_attr {N id : Nat} (isSource : id < N) : regAt N (0x1000 + 4 * id + 2) .one = some (.attr id) :=
  (regAt_source isSource (by decide)).trans (congrArg some (sourceRegAt_attr id))

theorem regAt_ctl {N id : Nat} (isSource : id < N) : regAt N (0x1000 + 4 * id + 3) .one = some (.ctl id) :=
  (regAt_source isSource (by decide)).trans (congrArg some (sourceRegAt_ctl id))

/-! ### Accesses that reach no register (20_memory R62, R63) -/

theorem regAt_of_unsupported {N off : Nat} {n : Width} (h : supportedAccess N off n = false) : regAt N off n = none := by
  rw [← regAt_isSome] at h
  simpa using h

/-- An access that matches no row of 20_memory R61 is unsupported. -/
theorem supportedAccess_eq_false {N off : Nat} {n : Width} (gcfg : ¬ (off = 0x0000 ∧ n = .one)) (info : ¬ (off = 0x0004 ∧ n = .four))
    (mth : ¬ (off = 0x000B ∧ n = .one)) (source : ¬ (n = .one ∧ 0x1000 ≤ off ∧ off < 0x1000 + 4 * N)) :
    supportedAccess N off n = false := by
  simp only [supportedAccess, Bool.or_eq_false_iff, Bool.and_eq_false_iff, beq_eq_false_iff_ne, decide_eq_false_iff_not]
  refine ⟨⟨⟨not_and_or.mp gcfg, not_and_or.mp info⟩, not_and_or.mp mth⟩, ?_⟩
  rwa [or_assoc, ← not_and_or, ← not_and_or]

/-! ### The operation a register selects -/

/-- The read operation of a register (30_encoding R104). -/
def Reg.readOp : Reg → Instr
  | .gcfg => .rdGcfg
  | .info => .rdInfo
  | .mth => .rdMth
  | .ip id => .rdIp id
  | .ie id => .rdIe id
  | .attr id => .rdAttr id
  | .ctl id => .rdCtl id

/-- The write operation of a register, for written data (30_encoding R104, 20_memory R65). -/
def Reg.writeOp (data : Nat) : Reg → Instr
  | .gcfg => .wrGcfg (BitVec.ofNat 8 data)
  | .info => .wrInfo (BitVec.ofNat 32 data)
  | .mth => .wrMth (BitVec.ofNat 8 data)
  | .ip id => .wrIp id (BitVec.ofNat 8 data)
  | .ie id => .wrIe id (BitVec.ofNat 8 data)
  | .attr id => .wrAttr id (BitVec.ofNat 8 data)
  | .ctl id => .wrCtl id (BitVec.ofNat 8 data)

theorem readAt_of_regAt {N off : Nat} {n : Width} {r : Reg} (h : regAt N off n = some r) : readAt N off n = r.readOp := by
  unfold readAt
  rw [h]
  cases r <;> rfl

theorem writeAt_of_regAt {N off : Nat} {n : Width} {r : Reg} (data : Nat) (h : regAt N off n = some r) :
    writeAt N off n (BitVec.ofNat 64 data) = r.writeOp data := by
  have byte : (BitVec.ofNat 64 data).setWidth 8 = BitVec.ofNat 8 data := BitVec.setWidth_ofNat_of_le (by decide) data
  have word : (BitVec.ofNat 64 data).setWidth 32 = BitVec.ofNat 32 data := BitVec.setWidth_ofNat_of_le (by decide) data
  unfold writeAt
  rw [h]
  cases r with
  | info => exact congrArg Instr.wrInfo word
  | gcfg | mth | ip _ | ie _ | attr _ | ctl _ => simp only [byte, Reg.writeOp]

theorem readAt_of_unsupported {N off : Nat} {n : Width} (h : supportedAccess N off n = false) : readAt N off n = .rdZero off n := by
  unfold readAt
  rw [regAt_of_unsupported h]

theorem writeAt_of_unsupported {N off : Nat} {n : Width} (data : BusData) (h : supportedAccess N off n = false) :
    writeAt N off n data = .wrDrop off n data := by
  unfold writeAt
  rw [regAt_of_unsupported h]

/-! ### The operation a frame selects -/

theorem decode_readFrame_of_regAt {N off : Nat} {n : Width} {r : Reg} (h : regAt N off n = some r) :
    decode N (readFrame off n) = .ok r.readOp := by
  rw [decode_readFrame, readAt_of_regAt h]

theorem decode_writeFrame_of_regAt {N off : Nat} {n : Width} {data : Nat} {r : Reg} (fits : data < 256 ^ n.bytes)
    (h : regAt N off n = some r) : decode N (writeFrame off n data) = .ok (r.writeOp data) := by
  rw [decode_writeFrame N off n data fits, writeAt_of_regAt data h]

theorem decode_readFrame_of_unsupported {N off : Nat} {n : Width} (h : supportedAccess N off n = false) :
    decode N (readFrame off n) = .ok (.rdZero off n) := by
  rw [decode_readFrame, readAt_of_unsupported h]

theorem decode_writeFrame_of_unsupported {N off : Nat} {n : Width} {data : Nat} (fits : data < 256 ^ n.bytes)
    (h : supportedAccess N off n = false) : decode N (writeFrame off n data) = .ok (.wrDrop off n (BitVec.ofNat 64 data)) := by
  rw [decode_writeFrame N off n data fits, writeAt_of_unsupported _ h]

/-- Settles O5: a read selects the read operation of the register its access reaches, and `RD_ZERO` if it reaches none. -/
theorem mmioReadSelectsItsRow : Obligations.MmioReadSelectsItsRow := by
  intro N off n
  refine ⟨?gcfg, ?info, ?mth, ?source, ?other⟩
  case gcfg => rintro rfl rfl; exact decode_readFrame_of_regAt (r := .gcfg) rfl
  case info => rintro rfl rfl; exact decode_readFrame_of_regAt (r := .info) rfl
  case mth => rintro rfl rfl; exact decode_readFrame_of_regAt (r := .mth) rfl
  case source =>
    rintro id isSource rfl
    refine ⟨?_, ?_, ?_, ?_⟩ <;> rintro rfl
    · exact decode_readFrame_of_regAt (regAt_ip isSource)
    · exact decode_readFrame_of_regAt (regAt_ie isSource)
    · exact decode_readFrame_of_regAt (regAt_attr isSource)
    · exact decode_readFrame_of_regAt (regAt_ctl isSource)
  case other =>
    intro gcfg info mth source
    exact decode_readFrame_of_unsupported (supportedAccess_eq_false gcfg info mth source)

/-- Settles O6: a write selects the write operation of the register its access reaches, and `WR_DROP` if it reaches none. -/
theorem mmioWriteSelectsItsRow : Obligations.MmioWriteSelectsItsRow := by
  intro N off n data fits
  refine ⟨?gcfg, ?info, ?mth, ?source, ?other⟩
  case gcfg => rintro rfl rfl; exact decode_writeFrame_of_regAt (r := .gcfg) fits rfl
  case info => rintro rfl rfl; exact decode_writeFrame_of_regAt (r := .info) fits rfl
  case mth => rintro rfl rfl; exact decode_writeFrame_of_regAt (r := .mth) fits rfl
  case source =>
    rintro id isSource rfl
    refine ⟨?_, ?_, ?_, ?_⟩ <;> rintro rfl
    · exact decode_writeFrame_of_regAt fits (regAt_ip isSource)
    · exact decode_writeFrame_of_regAt fits (regAt_ie isSource)
    · exact decode_writeFrame_of_regAt fits (regAt_attr isSource)
    · exact decode_writeFrame_of_regAt fits (regAt_ctl isSource)
  case other =>
    intro gcfg info mth source
    exact decode_writeFrame_of_unsupported fits (supportedAccess_eq_false gcfg info mth source)

end Sys2Proof
end

-- ==== Proofs: decoding an encoded operation ====
section
/-! One lemma per port of the frame layout (log 1): what the encoder puts in the body, the decoder reads back. -/

namespace Sys2Proof

theorem decode_readRegFrame {N : Nat} {r : Reg} (reached : regAt N r.offset r.width = some r) :
    decode N (readRegFrame r) = .ok r.readOp :=
  decode_readFrame_of_regAt reached

theorem decode_writeRegFrame {N data : Nat} {r : Reg} (fits : data < 256 ^ r.width.bytes)
    (reached : regAt N r.offset r.width = some r) : decode N (writeRegFrame r data) = .ok (r.writeOp data) :=
  decode_writeFrame_of_regAt fits reached

/-- A register whose write operation carries the byte `data[7:0]` gets the byte written back whole. -/
theorem decode_byteWrite {N : Nat} {r : Reg} (op : Byte → Instr) (b : Byte) (row : ∀ data, r.writeOp data = op (BitVec.ofNat 8 data))
    (byteWide : r.width = .one) (reached : regAt N r.offset r.width = some r) : decode N (writeRegFrame r b.toNat) = .ok (op b) := by
  have fits : b.toNat < 256 ^ r.width.bytes := by
    rw [byteWide]
    exact b.isLt
  rw [decode_writeRegFrame fits reached, row, BitVec.ofNat_toNat, BitVec.setWidth_eq]

theorem decode_wrInfo (N : Nat) (d : BitVec 32) : decode N (encode (.wrInfo d)) = .ok (.wrInfo d) := by
  rw [encode, decode_writeRegFrame d.isLt rfl, Reg.writeOp, BitVec.ofNat_toNat, BitVec.setWidth_eq]

/-- A frame with nothing after its header. -/
theorem decode_header_alone (N sel : Nat) (port : Byte) : decode N (header sel port) = decodeBody N sel port [] := by
  rw [← decode_header, List.append_nil]

theorem decode_lineAssert (N id : Nat) : decode N (encode (.lineAssert id)) = .ok (.lineAssert id) :=
  decode_header N id 2 [1]

theorem decode_lineDeassert (N id : Nat) : decode N (encode (.lineDeassert id)) = .ok (.lineDeassert id) :=
  decode_header N id 2 [0]

theorem decode_ack (N id : Nat) : decode N (encode (.ack id)) = .ok (.ack id) :=
  decode_header_alone N id 3

theorem decode_snapshot (N : Nat) : decode N (encode .snapshot) = .ok .snapshot :=
  decode_header_alone N 0 5

theorem decode_reset (N : Nat) (p : ResetParams) : decode N (encode (.reset p)) = .ok (.reset p) := by
  rw [encode, decode_header]
  simp only [decodeBody, decodeResetBody, takeResetParams_encode]
  rfl

theorem decode_restore (N : Nat) (rec : Record) : decode N (encode (.restore rec)) = .ok (.restore rec) := by
  rw [encode, decode_header]
  simp [decodeBody, decodeRestoreBody, decodeSources_encodeSource]

theorem decode_wrDrop {N off : Nat} {n : Width} {data : BusData} (h : (Instr.wrDrop off n data).wellFormed N = true) :
    decode N (encode (.wrDrop off n data)) = .ok (.wrDrop off n data) := by
  obtain ⟨unsupported, fits⟩ : supportedAccess N off n = false ∧ data.toNat < 256 ^ n.bytes := by
    simpa [Instr.wellFormed, dataFits] using h
  rw [encode, decode_writeFrame_of_unsupported fits unsupported, BitVec.ofNat_toNat, BitVec.setWidth_eq]

theorem decode_rdZero {N off : Nat} {n : Width} (h : (Instr.rdZero off n).wellFormed N = true) :
    decode N (encode (.rdZero off n)) = .ok (.rdZero off n) :=
  decode_readFrame_of_unsupported (by simpa [Instr.wellFormed] using h)

/-- Settles O4: the frame of a register's operation is an access of this register, the frame of a fall-through operation an access of none,
and the other ports carry the operation's own fields. -/
theorem decodeOfEncodeIsTheOperation : Obligations.DecodeOfEncodeIsTheOperation := by
  intro N i h
  cases i with
  | reset p => exact decode_reset N p
  | wrGcfg b => exact decode_byteWrite (r := .gcfg) .wrGcfg b (fun _ => rfl) rfl rfl
  | rdGcfg => exact decode_readRegFrame (r := .gcfg) rfl
  | rdInfo => exact decode_readRegFrame (r := .info) rfl
  | wrInfo d => exact decode_wrInfo N d
  | wrMth b => exact decode_byteWrite (r := .mth) .wrMth b (fun _ => rfl) rfl rfl
  | rdMth => exact decode_readRegFrame (r := .mth) rfl
  | wrIp id b => exact decode_byteWrite (.wrIp id) b (fun _ => rfl) rfl (regAt_ip (of_decide_eq_true h))
  | rdIp id => exact decode_readRegFrame (regAt_ip (of_decide_eq_true h))
  | wrIe id b => exact decode_byteWrite (.wrIe id) b (fun _ => rfl) rfl (regAt_ie (of_decide_eq_true h))
  | rdIe id => exact decode_readRegFrame (regAt_ie (of_decide_eq_true h))
  | wrAttr id b => exact decode_byteWrite (.wrAttr id) b (fun _ => rfl) rfl (regAt_attr (of_decide_eq_true h))
  | rdAttr id => exact decode_readRegFrame (regAt_attr (of_decide_eq_true h))
  | wrCtl id b => exact decode_byteWrite (.wrCtl id) b (fun _ => rfl) rfl (regAt_ctl (of_decide_eq_true h))
  | rdCtl id => exact decode_readRegFrame (regAt_ctl (of_decide_eq_true h))
  | wrDrop off n data => exact decode_wrDrop h
  | rdZero off n => exact decode_rdZero h
  | lineAssert id => exact decode_lineAssert N id
  | lineDeassert id => exact decode_lineDeassert N id
  | ack id => exact decode_ack N id
  | snapshot => exact decode_snapshot N
  | restore rec => exact decode_restore N rec

/-- A byte list that is the frame of a well-formed operation decodes to it. -/
theorem decode_of_encode_eq {N : Nat} {i : Instr} {frame : List Byte} (h : encode i = frame) (wf : i.wellFormed N = true) :
    decode N frame = .ok i :=
  h ▸ decodeOfEncodeIsTheOperation N i wf

/-- Settles O3: the bytes are those the encoder writes for the operation. -/
theorem writtenOutFramesDecode : Obligations.WrittenOutFramesDecode :=
  ⟨decode_of_encode_eq (by decide) rfl, decode_of_encode_eq (by decide) rfl, decode_of_encode_eq (by decide) rfl,
    decode_of_encode_eq (by decide) rfl, decode_of_encode_eq (by decide) rfl, decode_of_encode_eq (by decide) rfl,
    decode_of_encode_eq (by decide) rfl, decode_of_encode_eq (by decide) rfl⟩

end Sys2Proof
end

-- ==== Proofs: operations on a source the controller does not have ====
section

namespace Sys2Proof.Machine

/-- A register of an absent source reads 0 (20_memory R63). -/
theorem State.readReg_of_absent {s : State} {r : Reg} (absent : s.hasReg r = false) : s.readReg r = 0 := by
  have zero {id : Nat} (h : decide (id < s.numSources) = false) : s.source id = Source.zero :=
    s.source_eq_zero id (Nat.not_lt.mp (of_decide_eq_false h))
  cases r with
  | gcfg | info | mth => cases absent
  | ip id => rw [State.readReg, State.ip, zero absent]; rfl
  | ie id => rw [State.readReg, State.ie, zero absent]; rfl
  | attr id => rw [State.readReg, State.attr, zero absent]; rfl
  | ctl id => rw [State.readReg, State.ctl, zero absent]; rfl

theorem readRegister_of_absent {s : State} {r : Reg} (absent : s.hasReg r = false) :
    readRegister r s = .next (s.withReply (.data 0)) :=
  (readRegister_next_iff r s _).2 (by rw [State.readReg_of_absent absent])

theorem writeRegister_of_absent {s : State} {r : Reg} (b : Byte) (absent : s.hasReg r = false) :
    writeRegister r b s = .next (s.withReply .nothing) :=
  (writeRegister_next_iff r b s _).2 (.inr ⟨absent, rfl⟩)

theorem lineEvent_of_absent {s : State} {id : Nat} (v : Bool) (absent : s.numSources ≤ id) :
    lineEvent id v s = .next (s.withReply .nothing) :=
  (lineEvent_next_iff id v s _).2 (.inr ⟨absent, rfl⟩)

theorem acknowledge_of_absent {s : State} {id : Nat} (absent : s.numSources ≤ id) :
    acknowledge id s = .next (s.withReply .nothing) :=
  (acknowledge_next_iff id s _).2 (.inr ⟨absent, rfl⟩)

/-- Settles O17: register access, line event and acknowledge each check that the source is there. -/
theorem absentSourceIsIgnored : Obligations.AbsentSourceIsIgnored := by
  intro s id b absent
  have noReg : decide (id < s.numSources) = false := decide_eq_false (Nat.not_lt.mpr absent)
  exact ⟨writeRegister_of_absent (r := .ip id) b noReg, writeRegister_of_absent (r := .ie id) b noReg,
    writeRegister_of_absent (r := .attr id) b noReg, writeRegister_of_absent (r := .ctl id) b noReg,
    readRegister_of_absent (r := .ip id) noReg, readRegister_of_absent (r := .ie id) noReg,
    readRegister_of_absent (r := .attr id) noReg, readRegister_of_absent (r := .ctl id) noReg,
    lineEvent_of_absent true absent, lineEvent_of_absent false absent, acknowledge_of_absent absent⟩

end Sys2Proof.Machine
end

-- ==== Proofs: fields of a byte left-justified over ones (40_attribute_decoder R122, R123) ====
section
/-! Level and priority are both the top bits of a byte with every bit below them 1, and such bytes compare like the fields they hold. -/

namespace Sys2Proof

/-- The top `w` bits of a byte, every bit below them 1. -/
def leftJustify (c : Byte) (w : Nat) : Byte := c ||| ((0xFF : Byte) >>> w)

theorem getLsbD_ones (w k : Nat) : ((0xFF : Byte) >>> w).getLsbD k = decide (w + k < 8) := by
  rw [show (0xFF : Byte) = BitVec.allOnes 8 from rfl, BitVec.getLsbD_ushiftRight, BitVec.getLsbD_allOnes]

theorem getLsbD_leftJustify (c : Byte) (w k : Nat) :
    (leftJustify c w).getLsbD k = if k < 8 - w then true else c.getLsbD k := by
  rw [leftJustify, BitVec.getLsbD_or, getLsbD_ones]
  split
  · simp [show w + k < 8 by omega]
  · simp [show ¬ w + k < 8 by omega]

@[simp] theorem leftJustify_zero (c : Byte) : leftJustify c 0 = 0xFF := BitVec.or_allOnes

@[simp] theorem leftJustify_eight (c : Byte) : leftJustify c 8 = c := BitVec.or_zero

/-- A byte with a bit left over below its field ends in a 1. -/
theorem leftJustify_ne_zero (c : Byte) {w : Nat} (partialWidth : w < 8) : leftJustify c w ≠ 0 := by
  intro zero
  have lowBit : (leftJustify c w).getLsbD 0 = true := by
    rw [getLsbD_leftJustify, if_pos (by omega)]
  rw [zero] at lowBit
  exact absurd lowBit (by decide)

theorem ones_le_leftJustify (c : Byte) (w : Nat) : (0xFF : Byte) >>> w ≤ leftJustify c w := by
  rw [BitVec.le_def, leftJustify, BitVec.toNat_or]
  exact Nat.right_le_or

/-- As a number: the field, then the largest number that the bits below it can hold. -/
theorem toNat_leftJustify (c : Byte) (w : Nat) :
    (leftJustify c w).toNat = 2 ^ (8 - w) * (c.toNat / 2 ^ (8 - w)) + (2 ^ (8 - w) - 1) := by
  have below : 2 ^ (8 - w) - 1 < 2 ^ (8 - w) := Nat.sub_one_lt_of_lt (Nat.two_pow_pos _)
  refine Nat.eq_of_testBit_eq fun k => ?_
  rw [BitVec.testBit_toNat, getLsbD_leftJustify, Nat.testBit_two_pow_mul_add _ below]
  by_cases inOnes : k < 8 - w
  · rw [if_pos inOnes, if_pos inOnes, Nat.testBit_two_pow_sub_one, decide_eq_true inOnes]
  · rw [if_neg inOnes, if_neg inOnes, Nat.testBit_div_two_pow, BitVec.testBit_toNat, Nat.sub_add_cancel (Nat.not_lt.mp inOnes)]

theorem leftJustify_lt_iff (c d : Byte) (w : Nat) :
    leftJustify c w < leftJustify d w ↔ c.toNat / 2 ^ (8 - w) < d.toNat / 2 ^ (8 - w) := by
  rw [BitVec.lt_def, toNat_leftJustify, toNat_leftJustify, Nat.add_lt_add_iff_right, Nat.mul_lt_mul_left (Nat.two_pow_pos _)]

theorem leftJustify_eq_iff (c d : Byte) (w : Nat) :
    leftJustify c w = leftJustify d w ↔ c.toNat / 2 ^ (8 - w) = d.toNat / 2 ^ (8 - w) := by
  rw [← BitVec.toNat_inj, toNat_leftJustify, toNat_leftJustify, Nat.add_right_cancel_iff, Nat.mul_right_inj (Nat.two_pow_pos _).ne']

end Sys2Proof
end

-- ==== Proofs: global split, level, priority and trigger mode (40_attribute_decoder R120 to R124) ====
section

namespace Sys2Proof.Machine

/-! ### The global split -/

/-- `nlbits` reads bits 4 to 1 of the global config byte. -/
theorem State.nlbits_eq_extract (s : State) : s.nlbits = min (s.gc.extractLsb' 1 4).toNat s.levelBits := by
  rw [State.nlbits, BitVec.extractLsb'_toNat, BitVec.toNat_and, BitVec.toNat_ushiftRight]
  exact congrArg (min · s.levelBits) (Nat.and_two_pow_sub_one_eq_mod _ 4)

theorem State.nlbits_eq_min (s : State) : s.nlbits = min (s.gc.toNat / 2 % 16) s.levelBits := by
  rw [State.nlbits_eq_extract, BitVec.extractLsb'_toNat, Nat.shiftRight_eq_div_pow]

theorem State.nlbits_le (s : State) : s.nlbits ≤ s.levelBits := Nat.min_le_right ..

theorem State.nlbits_add_pw (s : State) : s.nlbits + s.pw = s.levelBits := Nat.add_sub_of_le s.nlbits_le

/-- Settles O27: the field is cut out of the byte before it is clamped. -/
theorem nlbitsIsTheFieldClampedToL : Obligations.NlbitsIsTheFieldClampedToL := by
  intro s
  have field := s.nlbits_eq_min
  refine ⟨field, by omega, fun b agree => ?_, by omega⟩
  have sameField : b.extractLsb' 1 4 = s.gc.extractLsb' 1 4 := by
    refine BitVec.eq_of_getLsbD_eq fun k inField => ?_
    rw [BitVec.getLsbD_extractLsb', BitVec.getLsbD_extractLsb', agree (1 + k) (by omega) (by omega)]
  rw [State.nlbits_eq_extract, State.nlbits_eq_extract, sameField]

/-- Settles O28: `nlbits` is clamped to `L`, so the subtraction loses nothing. -/
theorem priorityWidthIsTheRestOfL : Obligations.PriorityWidthIsTheRestOfL :=
  fun s => ⟨rfl, Nat.sub_le .., s.nlbits_add_pw⟩

/-! ### Level and priority -/

theorem State.level_eq_leftJustify (s : State) (i : Nat) : s.level i = leftJustify (s.ctl i) s.nlbits := rfl

theorem State.priority_of_pw_eq_zero {s : State} (noField : s.pw = 0) (i : Nat) : s.priority i = 0 := if_pos noField

theorem State.priority_eq_leftJustify {s : State} (field : s.pw ≠ 0) (i : Nat) :
    s.priority i = leftJustify (s.ctl i <<< s.nlbits) s.pw := if_neg field

/-- Settles O29: the level is the ctl byte's top `nlbits` bits left-justified. -/
theorem levelIsTheTopBitsLeftJustified : Obligations.LevelIsTheTopBitsLeftJustified := by
  intro s i levels
  have clamped := s.nlbits_le
  refine ⟨rfl, fun k _ => getLsbD_leftJustify .., fun noField => ?_, fun wholeByte => ?_, ones_le_leftJustify .., fun zero => ?_⟩
  · rw [s.level_eq_leftJustify, noField, leftJustify_zero]
  · rw [s.level_eq_leftJustify, wholeByte, leftJustify_eight]
  · by_contra notWhole
    exact leftJustify_ne_zero (s.ctl i) (by omega) zero

/-- Settles O30: the left shift by `nlbits` puts the priority field at the top of the byte, and the zeros it shifts in lie below the field,
since `nlbits + pw = L <= 8`. -/
theorem priorityIsTheNextBitsLeftJustified : Obligations.PriorityIsTheNextBitsLeftJustified := by
  intro s i levels
  refine ⟨fun noField => State.priority_of_pw_eq_zero noField i, fun field k inByte => ?_⟩
  have widths := s.nlbits_add_pw
  rw [State.priority_eq_leftJustify field, getLsbD_leftJustify]
  by_cases below : k < 8 - s.pw
  · rw [if_pos below, if_pos below]
  · have notShiftedIn : ¬ k < s.nlbits := by omega
    rw [if_neg below, if_neg below, BitVec.getLsbD_shiftLeft]
    simp [inByte, notShiftedIn]

/-! ### Trigger mode -/

theorem State.toNat_trigCode (s : State) (i : Nat) : (s.trigCode i).toNat = (s.attr i).toNat / 2 % 4 := by
  rw [State.trigCode, BitVec.extractLsb'_toNat, Nat.shiftRight_eq_div_pow]

theorem State.trigger_of_code {s : State} {i k : Nat} (code : (s.attr i).toNat / 2 % 4 = k) :
    s.trigger i = s.trig.decode (BitVec.ofNat 2 k) := by
  rw [← code, ← s.toNat_trigCode, BitVec.ofNat_toNat, BitVec.setWidth_eq, State.trigger]

/-- Settles O31: bits 2 and 1 of the attr byte as a number select the entry of `TRIG_DECODE`. -/
theorem triggerIsDecodedFromBitsTwoAndOne : Obligations.TriggerIsDecodedFromBitsTwoAndOne :=
  fun _ _ => ⟨State.trigger_of_code, State.trigger_of_code, State.trigger_of_code, State.trigger_of_code⟩

end Sys2Proof.Machine
end

-- ==== Proofs: what the order of sources depends on (40_attribute_decoder R125, R128) ====
section

namespace Sys2Proof.Machine

/-! ### The attr byte does not enter -/

theorem State.ctl_storeReg_attr (s : State) (id : Nat) (b : Byte) (i : Nat) : (s.storeReg (.attr id) b).ctl i = s.ctl i :=
  readReg_ctl_iff.1 (State.readReg_storeReg_of_ne Reg.noConfusion)

theorem State.above_storeReg_attr (s : State) (id : Nat) (b : Byte) (x y : Nat) :
    (s.storeReg (.attr id) b).above x y = s.above x y := by
  have gc : (s.storeReg (.attr id) b).gc = s.gc := rfl
  have levelBits := s.storeReg_levelBits (.attr id) b
  have ctl := s.ctl_storeReg_attr id b
  exact State.above_congr (fun i => State.level_congr i gc levelBits (ctl i))
    (fun i => State.priority_congr i gc levelBits (ctl i)) x y

/-- Settles O32: the order is made of levels and priorities, which are functions of `gc`, `L` and the ctl bytes. -/
theorem shvIsForwardedAndNotRanked : Obligations.ShvIsForwardedAndNotRanked := by
  intro s
  refine ⟨fun _ => rfl, fun d delivered => ?_, s.above_storeReg_attr⟩
  obtain ⟨h, -, -, rfl⟩ := (s.winner_eq_some_iff d).1 delivered
  rfl

/-! ### The global split does not enter

At every split the pair of level and priority compares like the top `L` bits of the ctl byte read as one number. -/

/-- The top `L` bits of a source's ctl byte as a number: the level field is its high part, the priority field its low `pw` bits. -/
def State.rank (s : State) (i : Nat) : Nat := (s.ctl i).toNat / 2 ^ (8 - s.levelBits)

theorem State.levelField_eq {s : State} (levels : s.levelBits ≤ 8) (i : Nat) :
    (s.ctl i).toNat / 2 ^ (8 - s.nlbits) = s.rank i / 2 ^ s.pw := by
  have widths := s.nlbits_add_pw
  rw [State.rank, Nat.div_div_eq_div_mul, ← Nat.pow_add, show 8 - s.levelBits + s.pw = 8 - s.nlbits by omega]

theorem State.priorityField_eq {s : State} (levels : s.levelBits ≤ 8) (i : Nat) :
    (s.ctl i <<< s.nlbits).toNat / 2 ^ (8 - s.pw) = s.rank i % 2 ^ s.pw := by
  have widths := s.nlbits_add_pw
  have above : 2 ^ 8 = 2 ^ (8 - s.pw) * 2 ^ s.pw := by rw [← Nat.pow_add, Nat.sub_add_cancel (by omega)]
  have below : 2 ^ (8 - s.pw) = 2 ^ (8 - s.levelBits) * 2 ^ s.nlbits := by rw [← Nat.pow_add]; congr 1; omega
  calc (s.ctl i <<< s.nlbits).toNat / 2 ^ (8 - s.pw)
      = (s.ctl i).toNat * 2 ^ s.nlbits % (2 ^ (8 - s.pw) * 2 ^ s.pw) / 2 ^ (8 - s.pw) := by
        rw [BitVec.toNat_shiftLeft, Nat.shiftLeft_eq, above]
    _ = (s.ctl i).toNat * 2 ^ s.nlbits / 2 ^ (8 - s.pw) % 2 ^ s.pw := Nat.mod_mul_right_div_self ..
    _ = s.rank i % 2 ^ s.pw := by rw [below, Nat.mul_div_mul_right _ _ (Nat.two_pow_pos _), State.rank]

theorem State.level_lt_iff {s : State} (levels : s.levelBits ≤ 8) (a b : Nat) :
    s.level a < s.level b ↔ s.rank a / 2 ^ s.pw < s.rank b / 2 ^ s.pw := by
  rw [s.level_eq_leftJustify, s.level_eq_leftJustify, leftJustify_lt_iff, levelField_eq levels, levelField_eq levels]

theorem State.level_eq_iff {s : State} (levels : s.levelBits ≤ 8) (a b : Nat) :
    s.level a = s.level b ↔ s.rank a / 2 ^ s.pw = s.rank b / 2 ^ s.pw := by
  rw [s.level_eq_leftJustify, s.level_eq_leftJustify, leftJustify_eq_iff, levelField_eq levels, levelField_eq levels]

/-- At `pw = 0` both sides are false: the priorities are 0 and the fields are empty. -/
theorem State.priority_lt_iff {s : State} (levels : s.levelBits ≤ 8) (a b : Nat) :
    s.priority a < s.priority b ↔ s.rank a % 2 ^ s.pw < s.rank b % 2 ^ s.pw := by
  by_cases field : s.pw = 0
  · simp [State.priority_of_pw_eq_zero field, field, Nat.mod_one]
  · rw [priority_eq_leftJustify field, priority_eq_leftJustify field, leftJustify_lt_iff, priorityField_eq levels,
      priorityField_eq levels]

theorem State.priority_eq_iff {s : State} (levels : s.levelBits ≤ 8) (a b : Nat) :
    s.priority a = s.priority b ↔ s.rank a % 2 ^ s.pw = s.rank b % 2 ^ s.pw := by
  by_cases field : s.pw = 0
  · simp [State.priority_of_pw_eq_zero field, field, Nat.mod_one]
  · rw [priority_eq_leftJustify field, priority_eq_leftJustify field, leftJustify_eq_iff, priorityField_eq levels,
      priorityField_eq levels]

/-- Numbers compare by quotient, then by remainder. -/
theorem lt_iff_div_lt_or_mod_lt (x y k : Nat) : x < y ↔ x / k < y / k ∨ x / k = y / k ∧ x % k < y % k := by
  obtain lower | same | higher := lt_trichotomy (x / k) (y / k)
  · exact iff_of_true (Nat.lt_of_div_lt_div lower) (.inl lower)
  · have hx := Nat.div_add_mod x k
    have hy := Nat.div_add_mod y k
    rw [same] at hx
    simp only [same, lt_irrefl, true_and, false_or]
    omega
  · exact iff_of_false (Nat.lt_of_div_lt_div higher).asymm (by omega)

/-- The order of R191 without the global split: the higher top `L` bits of the ctl byte, else the lower id. -/
theorem State.above_iff_rank {s : State} (levels : s.levelBits ≤ 8) (a b : Nat) :
    s.above a b = true ↔ s.rank b < s.rank a ∨ s.rank a = s.rank b ∧ a < b := by
  simp only [State.above, Bool.or_eq_true, Bool.and_eq_true, decide_eq_true_eq, beq_iff_eq, level_lt_iff levels,
    level_eq_iff levels, priority_lt_iff levels, priority_eq_iff levels, lt_iff_div_lt_or_mod_lt (s.rank b) (s.rank a) (2 ^ s.pw),
    Nat.ext_div_mod_iff (2 ^ s.pw) (s.rank a) (s.rank b)]
  omega

theorem State.above_storeReg_gcfg {s : State} (levels : s.levelBits ≤ 8) (g : Byte) (a b : Nat) :
    (s.storeReg .gcfg g).above a b = s.above a b := by
  have sameRank (i : Nat) : (s.storeReg .gcfg g).rank i = s.rank i := rfl
  rw [Bool.eq_iff_iff, above_iff_rank (s := s.storeReg .gcfg g) levels, above_iff_rank levels]
  simp only [sameRank]

theorem State.pendingList_storeReg_gcfg {s : State} (levels : s.levelBits ≤ 8) (g : Byte) :
    (s.storeReg .gcfg g).pendingList = s.pendingList :=
  State.pendingList_congr rfl (fun _ => rfl) (State.above_storeReg_gcfg levels g)

/-- Settles O34: members and order are those before the write, and what is delivered after it is the head. -/
theorem globalConfigWriteKeepsThePendingOrder : Obligations.GlobalConfigWriteKeepsThePendingOrder := by
  intro s t g levels h
  have samePending := State.pendingList_storeReg_gcfg levels g
  have sameHead : (s.storeReg .gcfg g).head = s.head := congrArg List.head? samePending
  obtain ⟨-, rfl⟩ | ⟨absent, -⟩ := (writeRegister_next_iff .gcfg g s t).1 h
  · refine ⟨samePending, sameHead, fun d delivered => ?_⟩
    obtain ⟨id, isHead, -, rfl⟩ := (State.winner_eq_some_iff (s.storeReg .gcfg g) d).1 delivered
    exact sameHead.symm.trans isHead
  · cases absent

end Sys2Proof.Machine
end

-- ==== Proofs: the MMIO operations (41_mmio_operations) ====
section
/-! What each read and each write of the register interface answers. A write of a source's register is an update of that source alone,
after which the Dispatcher is re-run; what it keeps of membership, attributes and order follows from the registers it does not write. -/

namespace Sys2Proof.Machine

/-! ### Updates of one source -/

theorem onlySource_modifySource (s : State) (id : Nat) (f : Source → Source) : OnlySource id s (s.modifySource id f) :=
  ⟨sameParams_modifySource s id f, ⟨rfl, rfl⟩, fun j other => s.source_modifySource_other id j f other, rfl⟩

/-- The end of every event that updates one source (43_pending_set_and_dispatch R201). -/
theorem mutated_modifySource {s t : State} {id : Nat} {f : Source → Source} (isSource : id < s.numSources)
    (h : mutated (s.modifySource id f) = .next t) :
    t.source id = f (s.source id) ∧ OnlySource id s t ∧ t.draws = s.draws ∧ t.out = t.winner ∧ t.reply = .nothing := by
  obtain rfl := (mutated_next_iff _ t).1 h
  exact ⟨s.source_modifySource_same id f isSource, onlySource_modifySource s id f, rfl, State.out_mutated _ _, rfl⟩

/-- A write of a register whose store updates the four registers of source `id`. -/
theorem writeRegister_source {s t : State} {r : Reg} {b : Byte} {id : Nat} {f : SourceRaw → SourceRaw}
    (stores : s.storeReg r b = s.modifyRaw id f) (present : s.hasReg r = true) (isSource : id < s.numSources)
    (h : writeRegister r b s = .next t) :
    t.source id = ⟨f (s.source id).raw, s.line id⟩
      ∧ OnlySource id s t ∧ t.draws = s.draws ∧ t.out = t.winner ∧ t.reply = .nothing := by
  rw [writeRegister, if_pos present, stores] at h
  exact mutated_modifySource isSource h

/-- The decoded attributes of a source are a function of `gc`, `L`, `TRIG_DECODE` and the source (40_attribute_decoder R127). -/
theorem State.attributes_congr {s t : State} {i : Nat} (gc : t.gc = s.gc) (levelBits : t.levelBits = s.levelBits)
    (trig : t.trig = s.trig) (source : t.source i = s.source i) : t.attributes i = s.attributes i := by
  have ie : t.ie i = s.ie i := congrArg (·.raw.ie) source
  have attr : t.attr i = s.attr i := congrArg (·.raw.attr) source
  have ctl : t.ctl i = s.ctl i := congrArg (·.raw.ctl) source
  simp only [State.attributes, State.enabled, State.shv, State.level_congr i gc levelBits ctl,
    State.priority_congr i gc levelBits ctl, State.trigger_congr i trig attr, ie, attr]

/-- An update of one source decodes no other source anew. -/
theorem OnlySource.attributes {s t : State} {id j : Nat} (h : OnlySource id s t) (other : j ≠ id) :
    t.attributes j = s.attributes j := by
  obtain ⟨⟨-, -, -, levelBits, -, trig, -⟩, ⟨gc, -⟩, sources, -⟩ := h
  exact State.attributes_congr gc levelBits trig (sources j other)

theorem OnlySource.nlbits {s t : State} {id : Nat} (h : OnlySource id s t) : t.nlbits = s.nlbits := by
  obtain ⟨⟨-, -, -, levelBits, -⟩, ⟨gc, -⟩, -⟩ := h
  rw [State.nlbits, State.nlbits, gc, levelBits]

/-- With no level bits every source has the highest level (40_attribute_decoder R122). -/
theorem State.level_of_nlbits_eq_zero {s : State} (noLevel : s.nlbits = 0) (i : Nat) : s.level i = 0xFF := by
  rw [s.level_eq_leftJustify, noLevel, leftJustify_zero]

/-! ### Writes that keep the members -/

/-- Only a write of a pending or an enable byte can change who is a member (43_pending_set_and_dispatch R190). -/
theorem writeRegister_member {r : Reg} {b : Byte} {s t : State} (notIp : ∀ j, r ≠ .ip j) (notIe : ∀ j, r ≠ .ie j)
    (h : writeRegister r b s = .next t) (i : Nat) : t.member i = s.member i := by
  have ip : t.ip i = s.ip i := readReg_ip_iff.1 (writeRegister_readReg_of_ne h (notIp i))
  have ie : t.ie i = s.ie i := readReg_ie_iff.1 (writeRegister_readReg_of_ne h (notIe i))
  rw [State.member, State.member, ip, ie]

/-- Such a write keeps the pending list if it keeps the order. -/
theorem writeRegister_pendingList {r : Reg} {b : Byte} {s t : State} (notIp : ∀ j, r ≠ .ip j) (notIe : ∀ j, r ≠ .ie j)
    (h : writeRegister r b s = .next t) (above : ∀ x y, t.above x y = s.above x y) : t.pendingList = s.pendingList :=
  State.pendingList_congr (writeRegister_numSources h) (writeRegister_member notIp notIe h) above

/-! ### The per-source registers -/

theorem State.storeReg_ip (s : State) (id : Nat) (b : Byte) :
    s.storeReg (.ip id) b = s.modifyRaw id fun x => { x with ip := b.getLsbD 0 } := rfl

theorem State.storeReg_ie (s : State) (id : Nat) (b : Byte) :
    s.storeReg (.ie id) b = s.modifyRaw id fun x => { x with ie := b.getLsbD 0 } := rfl

theorem State.storeReg_attr (s : State) (id : Nat) (b : Byte) :
    s.storeReg (.attr id) b = s.modifyRaw id fun x => { x with attr := b } := rfl

theorem State.storeReg_ctl (s : State) (id : Nat) (b : Byte) :
    s.storeReg (.ctl id) b = s.modifyRaw id fun x => { x with ctl := b } := rfl

/-- Settles O13: the store updates the pending bit, and no trigger mode or line enters. -/
theorem pendingByteWrite : Obligations.PendingByteWrite := by
  intro s id b isSource
  have present : s.hasReg (.ip id) = true := decide_eq_true isSource
  have written := writeRegister_of_hasReg b present
  exact ⟨_, written, writeRegister_source (s.storeReg_ip id b) present isSource written⟩

/-- Settles O14: membership is read off the updated source. -/
theorem enableByteWrite : Obligations.EnableByteWrite := by
  intro s id b isSource
  have present : s.hasReg (.ie id) = true := decide_eq_true isSource
  have written := writeRegister_of_hasReg b present
  obtain ⟨source, only, draws, out, reply⟩ := writeRegister_source (s.storeReg_ie id b) present isSource written
  refine ⟨_, written, source, only, draws, out, reply, ?_⟩
  rw [State.member, State.ie, State.ip, source, State.ip]

/-- Settles O15: the attr byte enters neither membership nor the order. -/
theorem attrByteWrite : Obligations.AttrByteWrite := by
  intro s id b isSource
  have present : s.hasReg (.attr id) = true := decide_eq_true isSource
  have written := writeRegister_of_hasReg b present
  obtain ⟨source, only, draws, out, reply⟩ := writeRegister_source (s.storeReg_attr id b) present isSource written
  exact ⟨_, written, source, only, draws, out, reply,
    writeRegister_pendingList (fun _ => Reg.noConfusion) (fun _ => Reg.noConfusion) written (s.above_storeReg_attr id b)⟩

/-- Settles O16: other sources are decoded from unchanged registers, and at `nlbits = 0` no ctl byte enters a level. -/
theorem ctlByteWrite : Obligations.CtlByteWrite := by
  intro s id b isSource
  have present : s.hasReg (.ctl id) = true := decide_eq_true isSource
  have written := writeRegister_of_hasReg b present
  obtain ⟨source, only, draws, out, reply⟩ := writeRegister_source (s.storeReg_ctl id b) present isSource written
  exact ⟨_, written, source, only, draws, out, reply,
    writeRegister_member (fun _ => Reg.noConfusion) (fun _ => Reg.noConfusion) written,
    fun _ other => only.attributes other,
    fun noLevel => State.level_of_nlbits_eq_zero (only.nlbits.trans noLevel) id⟩

/-! ### Reads and dropped writes -/

theorem readRegister_eq_next (r : Reg) (s : State) : readRegister r s = .next (s.withReply (.data (s.readReg r))) :=
  (readRegister_next_iff r s _).2 rfl

theorem setWidth_byteOfBit (v : Bool) : (byteOfBit v).setWidth 64 = if v then (1 : BusData) else 0 := by
  cases v <;> rfl

theorem readRegister_ip (s : State) (id : Nat) :
    readRegister (.ip id) s = .next (s.withReply (.data (if s.ip id then 1 else 0))) := by
  rw [readRegister_eq_next, State.readReg, setWidth_byteOfBit]

theorem readRegister_ie (s : State) (id : Nat) :
    readRegister (.ie id) s = .next (s.withReply (.data (if s.ie id then 1 else 0))) := by
  rw [readRegister_eq_next, State.readReg, setWidth_byteOfBit]

/-- Settles O9: a read answers what the register shows and sets the reply alone. -/
theorem readOperationsReturnTheirRegister : Obligations.ReadOperationsReturnTheirRegister := by
  intro s id off n _
  exact ⟨readRegister_eq_next .gcfg s, readRegister_eq_next .info s, readRegister_eq_next .mth s, readRegister_ip s id,
    readRegister_ie s id, readRegister_eq_next (.attr id) s, readRegister_eq_next (.ctl id) s, (answered_next_iff 0 s _).2 rfl⟩

/-- Settles O10: both end as dropped writes, which set the reply alone. -/
theorem droppedWritesChangeNothing : Obligations.DroppedWritesChangeNothing := by
  intro s d off n data
  have drop : dropped s = .next (s.withReply .nothing) := (dropped_next_iff s _).2 rfl
  exact ⟨drop, drop⟩

/-! ### The global registers -/

/-- Settles O11: the store is one field, and membership does not read it. -/
theorem globalConfigWrite : Obligations.GlobalConfigWrite := by
  intro s b
  have written : exec (.wrGcfg b) s = .next _ := writeRegister_of_hasReg (s := s) (r := .gcfg) b rfl
  exact ⟨_, written, rfl, writeRegister_member (r := .gcfg) (fun _ => Reg.noConfusion) (fun _ => Reg.noConfusion) written⟩

/-- Settles O12: the store is one field, and neither attributes nor membership nor order read it. -/
theorem thresholdWrite : Obligations.ThresholdWrite := by
  intro s b
  have written : exec (.wrMth b) s = .next _ := writeRegister_of_hasReg (s := s) (r := .mth) b rfl
  exact ⟨_, written, rfl, fun _ => State.attributes_congr rfl rfl rfl rfl,
    writeRegister_pendingList (r := .mth) (fun _ => Reg.noConfusion) (fun _ => Reg.noConfusion) written
      (State.above_congr (fun i => State.level_congr i rfl rfl rfl) fun i => State.priority_congr i rfl rfl rfl)⟩

end Sys2Proof.Machine
end

-- ==== Proofs: line events and acknowledge (42_trigger_and_line_events) ====
section
/-! What a line event and an acknowledge of an existing source answer in each trigger mode: an update of that source alone, which the
trigger state machine fixes, a draw in `Reserved` mode, and the Dispatcher re-run. -/

namespace Sys2Proof.Machine

/-! ### The pending bit after an event (R175, R176, R180) -/

theorem nextIp_risingEdge_eq_ite (old v ip free : Bool) :
    nextIp .risingEdge old v ip free = if old = false ∧ v = true then true else ip := by
  cases old <;> cases v <;> rfl

theorem nextIp_fallingEdge_eq_ite (old v ip free : Bool) :
    nextIp .fallingEdge old v ip free = if old = true ∧ v = false then true else ip := by
  cases old <;> cases v <;> rfl

/-- In an edge mode no line event clears the pending bit. -/
theorem nextIp_of_latched {t : TriggerMode} (edge : t = .risingEdge ∨ t = .fallingEdge) (old v free : Bool) :
    nextIp t old v true free = true := by
  obtain rfl | rfl := edge
  · rw [nextIp_risingEdge, Bool.or_true]
  · rw [nextIp_fallingEdge, Bool.or_true]

/-- In an edge mode an acknowledge clears the pending bit (R180). -/
theorem ackIp_of_edge {t : TriggerMode} (edge : t = .risingEdge ∨ t = .fallingEdge) (ip free : Bool) : ackIp t ip free = false := by
  obtain rfl | rfl := edge <;> rfl

/-! ### The draw of an event (R177, R181) -/

theorem State.countDraw_of_ne_reserved {s : State} {id : Nat} (h : s.trigger id ≠ .reserved) : s.countDraw id = s := by
  have noDraw : s.reserved id = false := beq_eq_false_iff_ne.2 h
  simp [State.countDraw, noDraw]

theorem State.draws_countDraw_of_reserved {s : State} {id : Nat} (h : s.trigger id = .reserved) :
    (s.countDraw id).draws = s.draws + 1 :=
  if_pos (beq_iff_eq.2 h)

/-! ### Events on an existing source -/

theorem exec_lineOp (s : State) (id : Nat) (v : Bool) : exec (lineOp id v) s = lineEvent id v s := by
  cases v <;> rfl

/-- A line event stores the line value and the next pending bit (R173). -/
theorem lineEvent_of_isSource {s : State} {id : Nat} (v : Bool) (isSource : id < s.numSources) :
    ∃ t, lineEvent id v s = .next t
      ∧ t.source id = ⟨{ (s.source id).raw with ip := nextIp (s.trigger id) (s.line id) v (s.ip id) s.freeBit }, v⟩
      ∧ OnlySource id s t ∧ t.draws = (s.countDraw id).draws ∧ t.out = t.winner ∧ t.reply = .nothing :=
  ⟨_, if_pos isSource, mutated_modifySource (s := s.countDraw id) isSource rfl⟩

/-- An acknowledge stores the pending bit that the mode leaves (R180, R181). -/
theorem acknowledge_of_isSource {s : State} {id : Nat} (isSource : id < s.numSources) :
    ∃ t, acknowledge id s = .next t
      ∧ t.source id = ⟨{ (s.source id).raw with ip := ackIp (s.trigger id) (s.ip id) s.freeBit }, s.line id⟩
      ∧ OnlySource id s t ∧ t.draws = (s.countDraw id).draws ∧ t.out = t.winner ∧ t.reply = .nothing :=
  ⟨_, if_pos isSource, mutated_modifySource (s := s.countDraw id) isSource rfl⟩

/-! ### Line events in each mode -/

/-- The `Reserved` mode apart, no free bit is drawn. -/
theorem exec_lineOp_of_ne_reserved {s : State} {id : Nat} {m : TriggerMode} (v : Bool) (isSource : id < s.numSources)
    (mode : s.trigger id = m) (determined : m ≠ .reserved) :
    ∃ t, exec (lineOp id v) s = .next t
      ∧ t.source id = ⟨{ (s.source id).raw with ip := nextIp m (s.line id) v (s.ip id) s.freeBit }, v⟩
      ∧ OnlySource id s t ∧ t.draws = s.draws ∧ t.out = t.winner ∧ t.reply = .nothing := by
  subst mode
  simpa only [exec_lineOp, State.countDraw_of_ne_reserved determined] using lineEvent_of_isSource v isSource

/-- Settles O18: the next pending bit is the line value, whatever the line was. -/
theorem lineEventInLevelMode : Obligations.LineEventInLevelMode := by
  intro s id v isSource mode
  simpa only [nextIp_level] using exec_lineOp_of_ne_reserved v isSource mode nofun

/-- Settles O19: the next pending bit is set by a rise and kept otherwise. -/
theorem lineEventInRisingEdgeMode : Obligations.LineEventInRisingEdgeMode := by
  intro s id v isSource mode
  simpa only [nextIp_risingEdge_eq_ite] using exec_lineOp_of_ne_reserved v isSource mode nofun

/-- Settles O20: the next pending bit is set by a fall and kept otherwise. -/
theorem lineEventInFallingEdgeMode : Obligations.LineEventInFallingEdgeMode := by
  intro s id v isSource mode
  simpa only [nextIp_fallingEdge_eq_ite] using exec_lineOp_of_ne_reserved v isSource mode nofun

/-- Settles O21: the next pending bit is the free bit, and it counts as drawn. -/
theorem lineEventInReservedMode : Obligations.LineEventInReservedMode := by
  intro s id v isSource mode
  have event := lineEvent_of_isSource v isSource
  rwa [← exec_lineOp, mode, nextIp_reserved, State.draws_countDraw_of_reserved mode] at event

/-! ### Acknowledge in each mode -/

/-- A `Level` source has no latch to clear: its acknowledge only re-runs the Dispatcher (R180). -/
theorem acknowledge_of_level {s : State} {id : Nat} (isSource : id < s.numSources) (mode : s.trigger id = .level) :
    acknowledge id s = mutated s := by
  have noDraw : s.countDraw id = s := State.countDraw_of_ne_reserved (by simp [mode])
  rw [acknowledge, if_pos isSource, noDraw, mode]
  exact congrArg mutated (s.modifySource_eq_self id _ rfl)

/-- Settles O22: the pending bit after the acknowledge is the old one in `Level` mode and 0 in an edge mode. -/
theorem ackClearsEdgeSourcesOnly : Obligations.AckClearsEdgeSourcesOnly := by
  intro s id isSource
  refine ⟨fun level => ⟨_, acknowledge_of_level isSource level, rfl⟩, fun edge => ?_⟩
  have event := acknowledge_of_isSource isSource
  have noDraw : s.countDraw id = s := State.countDraw_of_ne_reserved fun mode => by simp [mode] at edge
  rwa [ackIp_of_edge edge, noDraw] at event

/-- Settles O23: the pending bit after the acknowledge is the old one and the free bit. -/
theorem ackInReservedModeNeverSets : Obligations.AckInReservedModeNeverSets := by
  intro s id isSource mode
  have event := acknowledge_of_isSource isSource
  rw [mode, State.draws_countDraw_of_reserved mode] at event
  obtain ⟨t, completes, source, frame⟩ := event
  have ip : t.ip id = (s.ip id && s.freeBit) := congrArg (·.raw.ip) source
  exact ⟨t, completes, source, fun pending => (Bool.and_eq_true_iff.1 (ip ▸ pending)).1, frame⟩

/-! ### Latched edges -/

/-- No line event clears a latched edge (R175, R176); an absent source holds none. -/
theorem lineEvent_ip_of_latched {s t : State} {id : Nat} {v : Bool} (edge : s.trigger id = .risingEdge ∨ s.trigger id = .fallingEdge)
    (latched : s.ip id = true) (h : lineEvent id v s = .next t) : t.ip id = true := by
  by_cases isSource : id < s.numSources
  · obtain ⟨u, completes, source, -⟩ := lineEvent_of_isSource v isSource
    obtain rfl : u = t := Host.Outcome.next.inj (completes.symm.trans h)
    calc
      u.ip id = nextIp (s.trigger id) (s.line id) v (s.ip id) s.freeBit := congrArg (·.raw.ip) source
      _ = true := by rw [latched, nextIp_of_latched edge]
  · obtain rfl := Host.Outcome.next.inj ((lineEvent_of_absent v (Nat.not_lt.1 isSource)).symm.trans h)
    exact latched

/-- Settles O24: of the operations that can write the pending bit, only the line events are left, and these keep it set. -/
theorem latchedEdgeStaysUntilAckOrWrite : Obligations.LatchedEdgeStaysUntilAckOrWrite := by
  intro i s t id edge latched h noAck noWrite noReset noRestore
  by_cases writes : writtenReg i = some (.ip id)
  · obtain ⟨b, wrIp⟩ | rfl | rfl | ack := (writtenReg_eq_ip_iff i id).1 writes
    · exact absurd wrIp (noWrite b)
    · exact lineEvent_ip_of_latched edge latched h
    · exact lineEvent_ip_of_latched edge latched h
    · exact absurd ack noAck
  · exact (readReg_ip_iff.1 (exec_readReg_of_ne noReset noRestore h writes)).trans latched

/-! ### Redundant line events -/

/-- Delivering the winner again changes nothing when it is the delivered value (43_pending_set_and_dispatch R202). -/
theorem State.OutCurrent.redispatch_eq {s : State} (current : s.OutCurrent) : s.redispatch = s := by
  rw [State.redispatch, ← current]

/-- Settles O25: the event writes back what the source holds, and the value it delivers is current. -/
theorem reassertingPendingLevelLineChangesNothing : Obligations.ReassertingPendingLevelLineChangesNothing := by
  intro s id isSource mode line ip current
  have noDraw : s.countDraw id = s := State.countDraw_of_ne_reserved (by simp [mode])
  have same : (⟨{ (s.source id).raw with ip := true }, true⟩ : Source) = s.source id :=
    calc
      _ = (⟨{ (s.source id).raw with ip := s.ip id }, s.line id⟩ : Source) := by rw [ip, line]
      _ = s.source id := rfl
  calc
    exec (.lineAssert id) s = lineEvent id true s := rfl
    _ = mutated (s.modifySource id fun x => ⟨{ x.raw with ip := true }, true⟩) := by
      simp only [lineEvent, if_pos isSource, noDraw, mode, nextIp_level]
    _ = mutated s := by rw [s.modifySource_eq_self id _ same]
    _ = .next (s.withReply .nothing) := by rw [mutated, current.redispatch_eq]

end Sys2Proof.Machine
end

-- ==== Proofs: membership and the order of sources (43_pending_set_and_dispatch R190 to R192) ====
section
/-! The order of R191 is a lexicographic product of total orders in which the id comes last, so the laws of R192 are those of the
product. -/

namespace Sys2Proof.Machine

/-! ### Membership -/

theorem State.member_iff (s : State) (i : Nat) : s.member i = true ↔ s.ie i = true ∧ s.ip i = true :=
  Bool.and_eq_true_iff

/-- Settles O35: membership is the conjunction of the two bits. -/
theorem memberIsEnabledAndPending : Obligations.MemberIsEnabledAndPending := by
  intro s i
  refine ⟨s.member_iff i, fun t ie ip => ?_⟩
  rw [State.member, State.member, ie, ip]

/-! ### The order -/

theorem State.above_iff (s : State) (a b : Nat) :
    s.above a b = true ↔ (s.level b).toNat < (s.level a).toNat
      ∨ ((s.level a).toNat = (s.level b).toNat ∧ (s.priority b).toNat < (s.priority a).toNat)
      ∨ ((s.level a).toNat = (s.level b).toNat ∧ (s.priority a).toNat = (s.priority b).toNat ∧ a < b) := by
  simp only [State.above, Bool.or_eq_true, Bool.and_eq_true, decide_eq_true_eq, beq_iff_eq, BitVec.lt_def, BitVec.toNat_inj,
    and_or_left]

/-- Settles O36: the comparison reads level, priority and id alone. -/
theorem aboveIsLevelThenPriorityThenId : Obligations.AboveIsLevelThenPriorityThenId := by
  intro s a b
  refine ⟨s.above_iff a b, fun t levelA levelB priorityA priorityB => ?_⟩
  simp only [State.above, levelA, levelB, priorityA, priorityB]

/-- Level and priority, the greater first, then the id, the lower first: what R191 compares. -/
def State.sortKey (s : State) (i : Nat) : ℕᵒᵈ ×ₗ ℕᵒᵈ ×ₗ ℕ :=
  toLex (OrderDual.toDual (s.level i).toNat, toLex (OrderDual.toDual (s.priority i).toNat, i))

theorem State.above_iff_sortKey_lt (s : State) (a b : Nat) : s.above a b = true ↔ s.sortKey a < s.sortKey b := by
  simp only [s.above_iff, State.sortKey, Prod.Lex.toLex_lt_toLex, OrderDual.toDual_lt_toDual, OrderDual.toDual_inj, and_or_left]

theorem State.above_eq_false_iff_sortKey_le (s : State) (a b : Nat) : s.above a b = false ↔ s.sortKey b ≤ s.sortKey a := by
  rw [← Bool.not_eq_true, s.above_iff_sortKey_lt, not_lt]

/-- No two sources share a key, since the id is part of it. -/
theorem State.sortKey_injective (s : State) : Function.Injective s.sortKey :=
  fun _ _ same => congrArg (fun key => (ofLex (ofLex key).2).2) same

@[simp] theorem State.above_self (s : State) (a : Nat) : s.above a a = false :=
  (s.above_eq_false_iff_sortKey_le a a).2 le_rfl

theorem State.above_trans {s : State} {a b c : Nat} (hab : s.above a b = true) (hbc : s.above b c = true) :
    s.above a c = true := by
  rw [s.above_iff_sortKey_lt] at hab hbc ⊢
  exact hab.trans hbc

/-- Of two sources exactly one ranks above the other. -/
theorem State.above_eq_false_iff (s : State) (a b : Nat) : s.above a b = false ↔ a = b ∨ s.above b a = true := by
  rw [s.above_eq_false_iff_sortKey_le, s.above_iff_sortKey_lt, le_iff_eq_or_lt, s.sortKey_injective.eq_iff, eq_comm]

theorem State.above_asymm {s : State} {a b : Nat} (h : s.above a b = true) : s.above b a = false :=
  (s.above_eq_false_iff b a).2 (.inr h)

theorem State.level_le_of_above {s : State} {a b : Nat} (h : s.above a b = true) : s.level b ≤ s.level a := by
  rw [BitVec.le_def]
  obtain higher | ⟨same, -⟩ | ⟨same, -⟩ := (s.above_iff a b).1 h
  exacts [higher.le, same.ge, same.ge]

/-- Settles O37: the laws of the lexicographic product. -/
theorem aboveIsAStrictTotalOrder : Obligations.AboveIsAStrictTotalOrder := by
  intro s
  refine ⟨s.above_self, fun a b distinct => ?_, fun _ _ _ => State.above_trans⟩
  cases h : s.above a b with
  | true => exact .inl ⟨rfl, State.above_asymm h⟩
  | false => exact .inr ⟨rfl, ((s.above_eq_false_iff a b).1 h).resolve_left distinct⟩

end Sys2Proof.Machine
end

-- ==== Proofs: the pending list in order and its head (43_pending_set_and_dispatch R193, R195) ====
section

namespace Sys2Proof.Machine

/-! ### The pending list -/

/-- Inserting a new source keeps a ranked list ranked. -/
theorem State.pairwise_insertRanked {s : State} {a : Nat} {l : List Nat} (ranked : l.Pairwise fun x y => s.above x y = true)
    (new : a ∉ l) : (insertRanked s.above a l).Pairwise fun x y => s.above x y = true := by
  induction l with
  | nil => exact List.pairwise_singleton _ a
  | cons b rest ih =>
    obtain ⟨first, ranked'⟩ := List.pairwise_cons.1 ranked
    obtain ⟨distinct, new'⟩ := not_or.1 (mt List.mem_cons.2 new)
    unfold insertRanked
    split
    · next front =>
      refine List.pairwise_cons.2 ⟨fun x hx => ?_, ranked⟩
      obtain rfl | later := List.mem_cons.1 hx
      · exact front
      · exact State.above_trans front (first x later)
    · next behind =>
      refine List.pairwise_cons.2 ⟨fun x hx => ?_, ih ranked' new'⟩
      obtain rfl | later := (mem_insertRanked s.above a x rest).1 hx
      · exact ((s.above_eq_false_iff x b).1 (Bool.eq_false_of_not_eq_true behind)).resolve_left distinct
      · exact first x later

theorem State.pairwise_foldr_insertRanked (s : State) {l : List Nat} (distinct : l.Nodup) :
    (l.foldr (insertRanked s.above) []).Pairwise fun x y => s.above x y = true := by
  induction l with
  | nil => exact .nil
  | cons a l ih =>
    obtain ⟨new, distinct'⟩ := List.nodup_cons.1 distinct
    exact State.pairwise_insertRanked (ih distinct') (mt (mem_foldr_insertRanked s.above a l).1 new)

theorem State.pairwise_pendingList (s : State) : s.pendingList.Pairwise fun a b => s.above a b = true :=
  s.pairwise_foldr_insertRanked (List.nodup_range.filter s.member)

/-- A ranked list has no repeats, since no source ranks above itself. -/
theorem State.nodup_of_pairwise_above {s : State} {l : List Nat} (ranked : l.Pairwise fun a b => s.above a b = true) : l.Nodup :=
  ranked.imp fun {a b} above same => by simp [same] at above

/-- Settles O38: two ranked lists of the same sources are permutations of each other, and the order is antisymmetric. -/
theorem pendingListIsTheMembersInOrder : Obligations.PendingListIsTheMembersInOrder := by
  intro s
  have ranked := s.pairwise_pendingList
  have nodup := State.nodup_of_pairwise_above ranked
  refine ⟨s.mem_pendingList, ranked, nodup, fun l members ranked' => ?_⟩
  have sameSources : l.Perm s.pendingList :=
    (List.perm_ext_iff_of_nodup (State.nodup_of_pairwise_above ranked') nodup).2 fun i =>
      (members i).trans (s.mem_pendingList i).symm
  refine sameSources.eq_of_pairwise (fun a b _ _ hab hba => ?_) ranked' ranked
  exact absurd hba (Bool.eq_false_iff.1 (State.above_asymm hab))

/-! ### The head -/

theorem State.head_eq_none_iff (s : State) : s.head = none ↔ ∀ i, i < s.numSources → s.member i = false := by
  rw [State.head, List.head?_eq_none_iff, List.eq_nil_iff_forall_not_mem]
  simp only [s.mem_pendingList, not_and, Bool.not_eq_true]

theorem State.head_above {s : State} {h j : Nat} (isHead : s.head = some h) (isSource : j < s.numSources)
    (member : s.member j = true) (other : j ≠ h) : s.above h j = true := by
  obtain ⟨rest, split⟩ := List.head?_eq_some_iff.1 isHead
  have listed : j ∈ s.pendingList := (s.mem_pendingList j).2 ⟨isSource, member⟩
  have ranked := s.pairwise_pendingList
  rw [split] at listed ranked
  exact List.rel_of_pairwise_cons ranked ((List.mem_cons.1 listed).resolve_left other)

theorem State.level_le_head {s : State} {h j : Nat} (isHead : s.head = some h) (isSource : j < s.numSources)
    (member : s.member j = true) : s.level j ≤ s.level h := by
  by_cases same : j = h
  · exact same ▸ BitVec.le_refl _
  · exact State.level_le_of_above (State.head_above isHead isSource member same)

/-- The head is the one maximal member: by totality a member that none ranks above ranks above the head or is it. -/
theorem State.head_eq_some_iff (s : State) (h : Nat) :
    s.head = some h ↔ h < s.numSources ∧ s.member h = true ∧ ∀ j, j < s.numSources → s.member j = true → s.above j h = false := by
  constructor
  · intro isHead
    obtain ⟨isSource, member⟩ := State.head_mem isHead
    refine ⟨isSource, member, fun j isSource' member' => (s.above_eq_false_iff j h).2 ?_⟩
    exact or_iff_not_imp_left.2 (State.head_above isHead isSource' member')
  · rintro ⟨isSource, member, maximal⟩
    cases isHead : s.head with
    | none => simp [s.head_eq_none_iff.1 isHead h isSource] at member
    | some top =>
      obtain ⟨isSource', member'⟩ := State.head_mem isHead
      by_contra other
      have above := State.head_above isHead isSource member fun same => other (congrArg some same.symm)
      simp [maximal top isSource' member'] at above

/-- Settles O39: the head is the first of a ranked list, and what ranks below has no greater level. -/
theorem headRanksAboveEveryOtherMember : Obligations.HeadRanksAboveEveryOtherMember := by
  intro s
  refine ⟨s.head_eq_none_iff, fun h isHead => ?_⟩
  obtain ⟨isSource, member⟩ := State.head_mem isHead
  exact ⟨isSource, member, fun j isSource' member' other =>
    ⟨State.head_above isHead isSource' member' other, State.level_le_head isHead isSource' member'⟩⟩

end Sys2Proof.Machine
end

-- ==== Proofs: the winner and the threshold (43_pending_set_and_dispatch R196, R198, R203) ====
section

namespace Sys2Proof.Machine

/-! ### The head and the threshold -/

theorem State.winner_of_head_none {s : State} (noHead : s.head = none) : s.winner = none := by
  simp only [State.winner, noHead]

theorem State.winner_of_head {s : State} {h : Nat} (isHead : s.head = some h) :
    s.winner = if s.mth ≤ s.level h then some ⟨h, s.level h, s.shv h⟩ else none := by
  simp only [State.winner, isHead]

/-- Settles O40: the head has the greatest level of all members. -/
theorem winnerIsTheHeadAtOrAboveThreshold : Obligations.WinnerIsTheHeadAtOrAboveThreshold := by
  intro s
  refine ⟨State.winner_of_head_none, fun h isHead passes => ?_, fun h isHead below => ⟨?_, fun j isSource member => ?_⟩⟩
  · rw [State.winner_of_head isHead, if_pos passes]
  · rw [State.winner_of_head isHead, if_neg (BitVec.not_le.2 below)]
  · exact Nat.lt_of_le_of_lt (BitVec.le_def.1 (State.level_le_head isHead isSource member)) below

theorem State.pendingList_of_mth (s : State) (m : Byte) : ({ s with mth := m } : State).pendingList = s.pendingList :=
  State.pendingList_congr rfl (fun _ => rfl) fun _ _ => rfl

/-- Settles O42: the pending list does not read the threshold, and no level is below 0 or above 0xFF. -/
theorem thresholdTestIsAtOrAbove : Obligations.ThresholdTestIsAtOrAbove := by
  intro s h isHead
  refine ⟨?_, fun zero i => ?_, fun noLevel i => ?_, s.pendingList_of_mth, fun m passes => ?_⟩
  · rw [State.winner_of_head isHead, ← BitVec.le_def]
    split
    · next passes => exact iff_of_true rfl passes
    · next below => exact iff_of_false Bool.false_ne_true below
  · rw [zero]
    exact BitVec.le_def.2 (Nat.zero_le _)
  · rw [State.level_of_nlbits_eq_zero noLevel]
    exact BitVec.le_def.2 (Nat.le_of_lt_succ s.mth.isLt)
  · have sameHead : (s.storeReg .mth m).head = some h := (congrArg List.head? (s.pendingList_of_mth m)).trans isHead
    exact ⟨_, writeRegister_of_hasReg (r := .mth) m rfl, (State.winner_of_head sameHead).trans (if_pos passes)⟩

/-! ### The linear scan

The scan keeps the least key of the members that pass, and a member that passes and has the least key of these has the least key of
all members, since whatever ranks above it would pass too. -/

/-- Source `i` is a member at or above the threshold. -/
def State.passes (s : State) (i : Nat) : Bool := s.member i && decide (s.mth ≤ s.level i)

theorem State.passes_iff (s : State) (i : Nat) : s.passes i = true ↔ s.member i = true ∧ s.mth ≤ s.level i := by
  simp [State.passes]

theorem State.foldl_scanStep_eq_argmin (s : State) (l : List Nat) :
    l.foldl s.scanStep none = (l.filter s.passes).argmin s.sortKey := by
  have step (best : Option Nat) (i : Nat) :
      s.scanStep best i = if s.passes i then List.argAux (fun b c => s.sortKey b < s.sortKey c) best i else best := by
    cases best with
    | none => rfl
    | some b =>
      simp only [State.scanStep, State.passes, List.argAux, s.above_iff_sortKey_lt]
      congr
  rw [List.argmin, List.foldl_filter, funext₂ step]

theorem State.argmin_sortKey_eq_some_iff (s : State) (l : List Nat) (h : Nat) :
    l.argmin s.sortKey = some h ↔ h ∈ l ∧ ∀ j ∈ l, s.above j h = false := by
  simp only [s.above_eq_false_iff_sortKey_le]
  refine List.argmin_eq_some_iff.trans (and_congr_right fun _ => and_iff_left_of_imp fun least j listed notMore => ?_)
  rw [s.sortKey_injective (le_antisymm (least j listed) notMore)]

theorem State.scan_eq_some_iff (s : State) (h : Nat) :
    (List.range s.numSources).foldl s.scanStep none = some h ↔ s.head = some h ∧ s.mth ≤ s.level h := by
  simp only [s.foldl_scanStep_eq_argmin, s.argmin_sortKey_eq_some_iff, List.mem_filter, List.mem_range, s.passes_iff,
    s.head_eq_some_iff]
  constructor
  · rintro ⟨⟨isSource, member, passes⟩, maximal⟩
    refine ⟨⟨isSource, member, fun j isSource' member' => ?_⟩, passes⟩
    by_contra above
    have level := State.level_le_of_above (Bool.eq_true_of_not_eq_false above)
    exact above (maximal j ⟨isSource', member', BitVec.le_trans passes level⟩)
  · rintro ⟨⟨isSource, member, maximal⟩, passes⟩
    exact ⟨⟨isSource, member, passes⟩, fun j ⟨isSource', member', _⟩ => maximal j isSource' member'⟩

theorem State.winner_eq_scanWinner (s : State) : s.winner = s.scanWinner := by
  ext1 d
  rw [s.winner_eq_some_iff, State.scanWinner, Option.map_eq_some_iff]
  simp only [s.scan_eq_some_iff, and_assoc, eq_comm (a := d)]

/-- Settles O41: head and scan both find the maximal member. -/
theorem winnerIsTheLinearScan : Obligations.WinnerIsTheLinearScan := by
  intro s
  refine ⟨s.winner_eq_scanWinner, fun ⟨id, level, shv⟩ => ?_⟩
  simp only [s.winner_eq_some_iff, s.head_eq_some_iff, Delivery.mk.injEq]
  constructor
  · rintro ⟨_, ⟨isSource, member, maximal⟩, passes, rfl, rfl, rfl⟩
    exact ⟨isSource, member, maximal, passes, rfl, rfl⟩
  · rintro ⟨isSource, member, maximal, passes, rfl, rfl⟩
    exact ⟨id, ⟨isSource, member, maximal⟩, passes, rfl, rfl, rfl⟩

end Sys2Proof.Machine
end

-- ==== Proofs: when the Dispatcher runs (43_pending_set_and_dispatch R199, R200) ====
section

namespace Sys2Proof.Machine

theorem outCurrent_of_mutated {s t : State} (h : mutated s = .next t) : t.OutCurrent := by
  obtain rfl := (mutated_next_iff s t).1 h
  exact State.out_mutated s .nothing

theorem writeRegister_outCurrent {r : Reg} {b : Byte} {s t : State} (h : writeRegister r b s = .next t)
    (present : s.hasReg r = true) : t.OutCurrent :=
  outCurrent_of_mutated ((if_pos present).symm.trans h)

theorem lineEvent_outCurrent {id : Nat} {v : Bool} {s t : State} (h : lineEvent id v s = .next t)
    (isSource : id < s.numSources) : t.OutCurrent :=
  outCurrent_of_mutated ((if_pos isSource).symm.trans h)

theorem acknowledge_outCurrent {id : Nat} {s t : State} (h : acknowledge id s = .next t) (isSource : id < s.numSources) :
    t.OutCurrent :=
  outCurrent_of_mutated ((if_pos isSource).symm.trans h)

theorem execRestore_outCurrent {rec : Record} {s t : State} (h : execRestore rec s = .next t)
    (size : rec.src.length = s.numSources) : t.OutCurrent :=
  outCurrent_of_mutated ((if_pos size).symm.trans h)

theorem execReset_outCurrent {p : ResetParams} {s t : State} (h : execReset p s = .next t) : t.OutCurrent := by
  obtain ⟨-, rfl⟩ := (execReset_next_iff p s t).1 h
  exact (s.winner_construct p).symm

/-- An operation of the first list of R200 leaves the winner of the new state delivered, one of the second what was delivered before. -/
theorem exec_outCurrent_or_out_eq {i : Instr} {s t : State} (wf : i.wellFormed s.numSources = true)
    (size : ∀ rec, i = .restore rec → rec.src.length = s.numSources) (h : exec i s = .next t) :
    (redispatches i = true ∧ t.OutCurrent) ∨ (redispatches i = false ∧ t.out = s.out) := by
  cases i with
  | reset p => exact .inl ⟨rfl, execReset_outCurrent h⟩
  | wrGcfg b => exact .inl ⟨rfl, writeRegister_outCurrent (r := .gcfg) (b := b) h rfl⟩
  | wrMth b => exact .inl ⟨rfl, writeRegister_outCurrent (r := .mth) (b := b) h rfl⟩
  | wrIp _ _ | wrIe _ _ | wrAttr _ _ | wrCtl _ _ => exact .inl ⟨rfl, writeRegister_outCurrent h wf⟩
  | lineAssert _ | lineDeassert _ => exact .inl ⟨rfl, lineEvent_outCurrent h (of_decide_eq_true wf)⟩
  | ack _ => exact .inl ⟨rfl, acknowledge_outCurrent h (of_decide_eq_true wf)⟩
  | restore rec => exact .inl ⟨rfl, execRestore_outCurrent h (size rec rfl)⟩
  | rdGcfg | rdInfo | rdMth | rdIp _ | rdIe _ | rdAttr _ | rdCtl _ | wrInfo _ | wrDrop _ _ _ | rdZero _ _ | snapshot =>
    cases h
    exact .inr ⟨rfl, rfl⟩

/-- Settles O43: every operation is in one of the two lists. -/
theorem dispatcherRunsExactlyWhenListed : Obligations.DispatcherRunsExactlyWhenListed := by
  intro i s t wf size h
  obtain ⟨listed, current⟩ | ⟨unlisted, kept⟩ := exec_outCurrent_or_out_eq wf size h
  · exact ⟨fun _ => current, fun unlisted => by simp [listed] at unlisted⟩
  · exact ⟨fun listed => by simp [unlisted] at listed, fun _ => kept⟩

end Sys2Proof.Machine
end

-- ==== Proofs: snapshot and restore (44_snapshot_restore) ====
section
/-! A restore of a record of the instance's size makes it the instance's record (R211), and the record fixes all registers (R213). -/

namespace Sys2Proof.Machine

/-! ### The record -/

theorem State.length_src_record (s : State) : s.record.src.length = s.numSources :=
  List.length_map ..

/-- Entry `i` of a snapshot record holds the four registers of source `i` (30_encoding R108). -/
theorem State.getElem_src_record (s : State) (i : Nat) (h : i < s.record.src.length) :
    s.record.src[i] = (s.source i).raw := by
  rw [s.raw_source]
  exact (List.getD_eq_getElem _ _ h).symm

/-- The record holds all registers of an instance (10_state R40). -/
theorem sameRegisters_of_record {s t : State} (levelBits : t.levelBits = s.levelBits) (record : t.record = s.record) :
    SameRegisters s t where
  sources := by rw [← t.length_src_record, ← s.length_src_record, record]
  levelBits := levelBits
  gc := congrArg Record.gc record
  mth := congrArg Record.mth record
  raw i := by
    rw [State.raw_source, State.raw_source]
    exact congrArg (·.src.getD i Source.zero.raw) record

/-- With equal `TRIG_DECODE` equal registers decode to equal attributes (40_attribute_decoder R127). -/
theorem SameRegisters.attributes {s t : State} (h : SameRegisters s t) (trig : t.trig = s.trig) (i : Nat) :
    t.attributes i = s.attributes i := by
  simp only [State.attributes, State.enabled, h.level, h.priority, h.ie, State.trigger_congr i trig (h.attr i), h.shv]

/-- Settles O49: the record is the state's own. -/
theorem snapshotReturnsTheRegisters : Obligations.SnapshotReturnsTheRegisters := by
  intro s
  exact ⟨s.record, (execSnapshot_next_iff s _).2 rfl, rfl, rfl, s.length_src_record, s.getElem_src_record⟩

/-! ### The restore -/

theorem exec_restore_of_size {s : State} {rec : Record} (size : rec.src.length = s.numSources) :
    exec (.restore rec) s = .next ((s.loadRecord rec).redispatch.withReply .nothing) :=
  (execRestore_next_iff rec s _).2 (.inl ⟨size, rfl⟩)

/-- A snapshot right after a load of a record returns this record. -/
theorem State.record_loadRecord {s : State} {rec : Record} (size : rec.src.length = s.numSources) :
    (s.loadRecord rec).record = rec := by
  have src : (s.loadRecord rec).record.src = rec.src := by
    refine List.ext_getElem ?_ fun i h h' => ?_
    · rw [State.length_src_record, s.numSources_loadRecord rec size, size]
    · rw [State.getElem_src_record, s.source_loadRecord rec size i (size ▸ h')]
  exact congrArg (Record.mk rec.gc rec.mth) src

/-- Settles O50: the load stores the record, and the Dispatcher runs once after it. -/
theorem restoreLoadsTheRecord : Obligations.RestoreLoadsTheRecord := by
  intro s rec size
  exact ⟨_, exec_restore_of_size size, rfl, rfl, fun i h => s.source_loadRecord rec size i (size ▸ h),
    sameParams_loadRecord s rec size, rfl, rfl, State.out_mutated _ _, rfl⟩

/-- Settles O51: the size is tested before anything is stored. -/
theorem restoreOfAnotherSizeIsRejected : Obligations.RestoreOfAnotherSizeIsRejected :=
  fun s rec size => (execRestore_next_iff rec s _).2 (.inr ⟨size, rfl⟩)

/-- Settles O52: the restored instance has the record of the state the snapshot was taken from, so the same registers. -/
theorem snapshotRestoreRoundTrip : Obligations.SnapshotRestoreRoundTrip := by
  intro s a u rec taken returned sources levelBits
  obtain rfl := (execSnapshot_next_iff s a).1 taken
  obtain rfl : s.record = rec := Reply.record.inj returned
  have size : s.record.src.length = u.numSources := s.length_src_record.trans sources.symm
  have record : (u.loadRecord s.record).record = s.record := State.record_loadRecord size
  have regs : SameRegisters s (u.loadRecord s.record) := sameRegisters_of_record levelBits record
  exact ⟨_, exec_restore_of_size size, regs.pendingList, regs.winner, regs.winner, record, regs.attributes⟩

/-- Settles O53: the new instance's line bits are 0 and the restore keeps them, so the first assert is a rise. -/
theorem restoreIntoFreshInstanceForgetsTheLines : Obligations.RestoreIntoFreshInstanceForgetsTheLines := by
  intro s f p rec constructed size
  obtain ⟨-, rfl⟩ := (execReset_next_iff p s f).1 constructed
  have sizeOfNew : rec.src.length = (s.construct p).numSources := size.trans (s.numSources_construct p).symm
  obtain ⟨u, restored, -, -, -, ⟨-, -, sources, -⟩, -⟩ := restoreLoadsTheRecord _ rec sizeOfNew
  have low (i : Nat) : u.line i = false := (execRestore_line restored i).trans (s.line_construct p i)
  refine ⟨u, restored, fun i _ => low i, fun i isSource mode => ?_⟩
  have isSourceOfRestored : i < u.numSources := by rwa [sources, State.numSources_construct]
  obtain ⟨v, asserted, source, -⟩ := lineEventInRisingEdgeMode u i true isSourceOfRestored mode
  refine ⟨v, asserted, ?_⟩
  rw [State.ip, source]
  exact if_pos ⟨low i, rfl⟩

end Sys2Proof.Machine
end

-- ==== Proofs: nothing is raised at run time (60_exceptions R230) ====
section
/-! One lemma per shared operation: it completes, and its reply is no rejection. Of the operations of a constructed instance only
`RESTORE` has a rejection to reply with (R231). -/

namespace Sys2Proof.Machine

/-- The call answers a next state, which shows no error indication. -/
def CompletesWithoutError (r : Result) : Prop := ∃ t, r = .next t ∧ ∀ e, t.reply ≠ .rejected e

theorem mutated_completesWithoutError (s : State) : CompletesWithoutError (mutated s) := ⟨_, rfl, nofun⟩

theorem dropped_completesWithoutError (s : State) : CompletesWithoutError (dropped s) := ⟨_, rfl, nofun⟩

theorem answered_completesWithoutError (v : BusData) (s : State) : CompletesWithoutError (answered v s) := ⟨_, rfl, nofun⟩

theorem execSnapshot_completesWithoutError (s : State) : CompletesWithoutError (execSnapshot s) := ⟨_, rfl, nofun⟩

/-- A call that tests for its target and drops the access when there is none (20_memory R63, 30_encoding D14). -/
theorem mutatedOrDropped_completesWithoutError (target : Prop) [Decidable target] (s u : State) :
    CompletesWithoutError (if target then mutated u else dropped s) := by
  split
  · exact mutated_completesWithoutError u
  · exact dropped_completesWithoutError s

theorem writeRegister_completesWithoutError (r : Reg) (b : Byte) (s : State) : CompletesWithoutError (writeRegister r b s) :=
  mutatedOrDropped_completesWithoutError (s.hasReg r = true) s _

theorem lineEvent_completesWithoutError (id : Nat) (v : Bool) (s : State) : CompletesWithoutError (lineEvent id v s) :=
  mutatedOrDropped_completesWithoutError (id < s.numSources) s _

theorem acknowledge_completesWithoutError (id : Nat) (s : State) : CompletesWithoutError (acknowledge id s) :=
  mutatedOrDropped_completesWithoutError (id < s.numSources) s _

theorem exec_completesWithoutError {i : Instr} (s : State) (noReset : ∀ p, i ≠ .reset p) (noRestore : ∀ rec, i ≠ .restore rec) :
    CompletesWithoutError (exec i s) := by
  cases i with
  | reset p => exact absurd rfl (noReset p)
  | restore rec => exact absurd rfl (noRestore rec)
  | wrGcfg b => exact writeRegister_completesWithoutError .gcfg b s
  | wrMth b => exact writeRegister_completesWithoutError .mth b s
  | wrIp _ _ | wrIe _ _ | wrAttr _ _ | wrCtl _ _ => exact writeRegister_completesWithoutError _ _ s
  | rdGcfg | rdInfo | rdMth | rdIp _ | rdIe _ | rdAttr _ | rdCtl _ | rdZero _ _ => exact answered_completesWithoutError _ s
  | wrInfo _ | wrDrop _ _ _ => exact dropped_completesWithoutError s
  | lineAssert id => exact lineEvent_completesWithoutError id true s
  | lineDeassert id => exact lineEvent_completesWithoutError id false s
  | ack id => exact acknowledge_completesWithoutError id s
  | snapshot => exact execSnapshot_completesWithoutError s

/-- A `RESTORE` goes on whether the record has the instance's size (44_snapshot_restore R211) or another one (R212; log 10). -/
theorem execRestore_completes (rec : Record) (s : State) : ∃ t, execRestore rec s = .next t := by
  by_cases size : rec.src.length = s.numSources
  · exact ⟨_, exec_restore_of_size size⟩
  · exact ⟨_, restoreOfAnotherSizeIsRejected s rec size⟩

/-- Settles O56: `RESTORE` completes either way, and every other operation shows no error. -/
theorem nothingIsRaisedAtRunTime : Obligations.NothingIsRaisedAtRunTime := by
  intro i s noReset
  by_cases restores : ∃ rec, i = .restore rec
  · obtain ⟨rec, rfl⟩ := restores
    obtain ⟨t, completes⟩ := execRestore_completes rec s
    exact ⟨t, completes, fun noRestore => absurd rfl (noRestore rec)⟩
  · obtain ⟨t, completes, noError⟩ := exec_completesWithoutError s noReset (not_exists.1 restores)
    exact ⟨t, completes, fun _ => noError⟩

end Sys2Proof.Machine
end

-- ==== Proofs: events on a source not in Reserved mode ====
section
/-! Outside the `Reserved` mode a line event or an acknowledge updates its source by a function of that source and its mode alone: the
free bit and the count of draws do not enter (42_trigger_and_line_events R177, R181). -/

namespace Sys2Proof.Machine

/-! ### The free bit does not enter -/

theorem nextIp_of_ne_reserved {m : TriggerMode} (determined : m ≠ .reserved) (old v ip free : Bool) :
    nextIp m old v ip free = nextIp m old v ip false := by
  cases m with
  | reserved => exact absurd rfl determined
  | level | risingEdge | fallingEdge => rfl

theorem ackIp_of_ne_reserved {m : TriggerMode} (determined : m ≠ .reserved) (ip free : Bool) :
    ackIp m ip free = ackIp m ip false := by
  cases m with
  | reserved => exact absurd rfl determined
  | level | risingEdge | fallingEdge => rfl

/-- A source in mode `m`, not `Reserved`, after line event `v` (42_trigger_and_line_events R173 to R176). -/
def Source.afterLine (m : TriggerMode) (v : Bool) (x : Source) : Source :=
  ⟨{ x.raw with ip := nextIp m x.line v x.raw.ip false }, v⟩

/-- The registers of a source in mode `m`, not `Reserved`, after an acknowledge (42_trigger_and_line_events R180). -/
def SourceRaw.afterAck (m : TriggerMode) (x : SourceRaw) : SourceRaw := { x with ip := ackIp m x.ip false }

theorem lineEvent_of_ne_reserved {s : State} {id : Nat} (v : Bool) (isSource : id < s.numSources)
    (determined : s.trigger id ≠ .reserved) :
    lineEvent id v s = mutated (s.modifySource id (Source.afterLine (s.trigger id) v)) := by
  rw [lineEvent, if_pos isSource, State.countDraw_of_ne_reserved determined]
  simp only [nextIp_of_ne_reserved determined _ _ _ s.freeBit]
  rfl

theorem acknowledge_of_ne_reserved {s : State} {id : Nat} (isSource : id < s.numSources)
    (determined : s.trigger id ≠ .reserved) :
    acknowledge id s = mutated (s.modifyRaw id (SourceRaw.afterAck (s.trigger id))) := by
  rw [acknowledge, if_pos isSource, State.countDraw_of_ne_reserved determined]
  simp only [ackIp_of_ne_reserved determined _ s.freeBit]
  rfl

/-! ### Line events on different sources (60_exceptions R237) -/

/-- A later event delivers the winner and the reply anew, so what the event before it delivered and replied leaves no trace. -/
theorem mutated_modifySource_redispatch (s : State) (r : Reply) (id : Nat) (f : Source → Source) :
    mutated ((s.redispatch.withReply r).modifySource id f) = mutated (s.modifySource id f) := rfl

theorem OnlySource.trigger {s t : State} {id j : Nat} (h : OnlySource id s t) (other : j ≠ id) : t.trigger j = s.trigger j :=
  congrArg Attributes.trigger (h.attributes other)

theorem OnlySource.numSources {s t : State} {id : Nat} (h : OnlySource id s t) : t.numSources = s.numSources := by
  obtain ⟨⟨-, -, sources, -⟩, -⟩ := h
  exact sources

/-- Two line events in a row are both updates of the first state, delivered at once: the first does not change the second source's
mode. -/
theorem lineEvent_then_lineEvent {s : State} {a b : Nat} (va vb : Bool) (other : b ≠ a)
    (determinedA : s.trigger a ≠ .reserved) (determinedB : s.trigger b ≠ .reserved)
    (isSourceA : a < s.numSources) (isSourceB : b < s.numSources) :
    ∃ t, lineEvent a va s = .next t
      ∧ lineEvent b vb t = mutated ((s.modifySource a (Source.afterLine (s.trigger a) va)).modifySource b
          (Source.afterLine (s.trigger b) vb)) := by
  obtain ⟨t, completes, -, onlyA, -⟩ := lineEvent_of_isSource va isSourceA
  have modeB : t.trigger b = s.trigger b := onlyA.trigger other
  have isSource : b < t.numSources := by rwa [onlyA.numSources]
  refine ⟨t, completes, ?_⟩
  rw [lineEvent_of_ne_reserved vb isSource (modeB ▸ determinedB), modeB]
  obtain rfl := (mutated_next_iff _ t).1 ((lineEvent_of_ne_reserved va isSourceA determinedA).symm.trans completes)
  exact mutated_modifySource_redispatch _ _ _ _

/-- Settles O26: in both orders the two updates are those of the first state, and updates of different sources commute. -/
theorem lineEventsOnDifferentSourcesCommute : Obligations.LineEventsOnDifferentSourcesCommute := by
  intro s a b va vb different determinedA determinedB isSourceA isSourceB
  obtain ⟨t, firstA, thenB⟩ := lineEvent_then_lineEvent va vb different.symm determinedA determinedB isSourceA isSourceB
  obtain ⟨u, firstB, thenA⟩ := lineEvent_then_lineEvent vb va different determinedB determinedA isSourceB isSourceA
  simp only [exec_lineOp]
  rw [s.modifySource_comm b a _ _ different.symm] at thenA
  exact ⟨t, u, _, firstA, thenB, firstB, thenA⟩

end Sys2Proof.Machine
end

-- ==== Proofs: no free value without a source in Reserved mode (60_exceptions R232; log 7) ====
section
/-! No call but an event on a source in `Reserved` mode reads the count of draws: each answers the same from every count and hands the
count on. -/

namespace Sys2Proof.Machine

/-! ### Another count of draws -/

/-- The state with another count of draws taken. -/
def State.withDraws (s : State) (d : Nat) : State := { s with draws := d }

theorem State.hasReg_withDraws (s : State) (d : Nat) (r : Reg) : (s.withDraws d).hasReg r = s.hasReg r := by cases r <;> rfl

theorem State.readReg_withDraws (s : State) (d : Nat) (r : Reg) : (s.withDraws d).readReg r = s.readReg r := by cases r <;> rfl

theorem State.storeReg_withDraws (s : State) (d : Nat) (r : Reg) (b : Byte) :
    (s.withDraws d).storeReg r b = (s.storeReg r b).withDraws d := by cases r <;> rfl

/-! ### Calls that take no free value -/

/-- If the call answers a next state it takes no free value, and from another count of draws it answers the same. -/
def TakesNoFreeValue (call : State → Result) (s : State) : Prop :=
  ∀ t, call s = .next t → t.draws = s.draws ∧ ∀ d, call (s.withDraws d) = .next (t.withDraws d)

/-- It is enough that the call answers the same next state from every count of draws and keeps the count. -/
theorem takesNoFreeValue_of_answers {call : State → Result} {s t : State}
    (answers : ∀ d, call (s.withDraws d) = .next (t.withDraws d)) : TakesNoFreeValue call s := by
  intro u completes
  obtain rfl : t.withDraws s.draws = u := Host.Outcome.next.inj ((answers s.draws).symm.trans completes)
  exact ⟨rfl, answers⟩

theorem takesNoFreeValue_of_withReply {call : State → Result} {s : State} {r : Reply}
    (replies : ∀ d, call (s.withDraws d) = .next ((s.withDraws d).withReply r)) : TakesNoFreeValue call s :=
  takesNoFreeValue_of_answers (t := s.withReply r) replies

theorem takesNoFreeValue_of_mutated {call : State → Result} {s : State} (u : State)
    (stores : ∀ d, call (s.withDraws d) = mutated (u.withDraws d)) : TakesNoFreeValue call s :=
  takesNoFreeValue_of_answers (t := u.redispatch.withReply .nothing) stores

theorem readRegister_takesNoFreeValue (r : Reg) (s : State) : TakesNoFreeValue (readRegister r) s :=
  takesNoFreeValue_of_withReply fun d => by rw [readRegister_eq_next, State.readReg_withDraws]

theorem writeRegister_takesNoFreeValue (r : Reg) (b : Byte) (s : State) : TakesNoFreeValue (writeRegister r b) s := by
  cases present : s.hasReg r with
  | false => exact takesNoFreeValue_of_withReply fun d => writeRegister_of_absent b ((s.hasReg_withDraws d r).trans present)
  | true =>
    refine takesNoFreeValue_of_mutated (s.storeReg r b) fun d => ?_
    rw [writeRegister, if_pos ((s.hasReg_withDraws d r).trans present), State.storeReg_withDraws]

theorem lineEvent_takesNoFreeValue {id : Nat} {s : State} (v : Bool)
    (determined : id < s.numSources → s.trigger id ≠ .reserved) : TakesNoFreeValue (lineEvent id v) s := by
  by_cases isSource : id < s.numSources
  · exact takesNoFreeValue_of_mutated (s.modifySource id (Source.afterLine (s.trigger id) v)) fun d =>
      lineEvent_of_ne_reserved (s := s.withDraws d) v isSource (determined isSource)
  · exact takesNoFreeValue_of_withReply fun d => lineEvent_of_absent (s := s.withDraws d) v (Nat.not_lt.1 isSource)

theorem acknowledge_takesNoFreeValue {id : Nat} {s : State}
    (determined : id < s.numSources → s.trigger id ≠ .reserved) : TakesNoFreeValue (acknowledge id) s := by
  by_cases isSource : id < s.numSources
  · exact takesNoFreeValue_of_mutated (s.modifyRaw id (SourceRaw.afterAck (s.trigger id))) fun d =>
      acknowledge_of_ne_reserved (s := s.withDraws d) isSource (determined isSource)
  · exact takesNoFreeValue_of_withReply fun d => acknowledge_of_absent (s := s.withDraws d) (Nat.not_lt.1 isSource)

theorem execRestore_takesNoFreeValue (rec : Record) (s : State) : TakesNoFreeValue (execRestore rec) s := by
  by_cases size : rec.src.length = s.numSources
  · exact takesNoFreeValue_of_mutated (s.loadRecord rec) fun d => exec_restore_of_size (s := s.withDraws d) size
  · exact takesNoFreeValue_of_withReply fun d => restoreOfAnotherSizeIsRejected (s.withDraws d) rec size

/-- A construction keeps the count of draws and no state of the instance before it (70_reset_and_hazards R262). -/
theorem execReset_takesNoFreeValue (p : ResetParams) (s : State) : TakesNoFreeValue (execReset p) s := by
  intro t completes
  obtain ⟨accepted, rfl⟩ := (execReset_next_iff p s t).1 completes
  exact ⟨rfl, fun d => (execReset_next_iff p (s.withDraws d) _).2 ⟨accepted, rfl⟩⟩

/-- Line events and acknowledges alone can draw, and these only on a source in `Reserved` mode (R177, R181). -/
theorem exec_takesNoFreeValue (i : Instr) {s : State} (noReserved : s.NoReserved) : TakesNoFreeValue (exec i) s := by
  have determined (id : Nat) (isSource : id < s.numSources) : s.trigger id ≠ .reserved :=
    beq_eq_false_iff_ne.1 (noReserved id isSource)
  cases i with
  | reset p => exact execReset_takesNoFreeValue p s
  | wrGcfg b => exact writeRegister_takesNoFreeValue .gcfg b s
  | wrMth b => exact writeRegister_takesNoFreeValue .mth b s
  | wrIp _ _ | wrIe _ _ | wrAttr _ _ | wrCtl _ _ => exact writeRegister_takesNoFreeValue _ _ s
  | rdGcfg | rdInfo | rdMth | rdIp _ | rdIe _ | rdAttr _ | rdCtl _ => exact readRegister_takesNoFreeValue _ s
  | wrInfo _ | wrDrop _ _ _ | rdZero _ _ => exact takesNoFreeValue_of_withReply fun _ => rfl
  | lineAssert id => exact lineEvent_takesNoFreeValue true (determined id)
  | lineDeassert id => exact lineEvent_takesNoFreeValue false (determined id)
  | ack id => exact acknowledge_takesNoFreeValue (determined id)
  | snapshot => exact takesNoFreeValue_of_withReply (r := .record s.record) fun _ => rfl
  | restore rec => exact execRestore_takesNoFreeValue rec s

/-- Settles O59: from another count of draws every operation answers the same next state, with that count. -/
theorem noFreeValueIsTakenWithoutReservedSources : Obligations.NoFreeValueIsTakenWithoutReservedSources := by
  intro i s t d noReserved completes
  obtain ⟨kept, answers⟩ := exec_takesNoFreeValue i noReserved t completes
  exact ⟨kept, answers d⟩

end Sys2Proof.Machine
end

-- ==== Proofs: construction accepted and rejected (70_reset_and_hazards R260) ====
section
/-! `RESET` is decided by its operands alone: `rejectionOf` names the fault, and where it names none the controller is new. -/

namespace Sys2Proof.Machine

/-! ### Why a construction is rejected: the first bound that fails -/

theorem rejectionOf_of_noSources {p : ResetParams} (noSources : p.numSources = 0) : rejectionOf p = some .noSources := by
  rw [rejectionOf, if_pos noSources]

theorem rejectionOf_of_apertureTooSmall {p : ResetParams} (sources : p.numSources ≠ 0)
    (tooSmall : p.aperture < 0x1000 + 4 * p.numSources) : rejectionOf p = some .apertureTooSmall := by
  rw [rejectionOf, if_neg sources, if_pos tooSmall]

theorem rejectionOf_of_tooManyLevelBits {p : ResetParams} (sources : p.numSources ≠ 0)
    (aperture : 0x1000 + 4 * p.numSources ≤ p.aperture) (tooMany : 8 < p.levelBits) :
    rejectionOf p = some .tooManyLevelBits := by
  rw [rejectionOf, if_neg sources, if_neg (Nat.not_lt.2 aperture), if_pos tooMany]

theorem rejectionOf_ne_none_iff (p : ResetParams) :
    rejectionOf p ≠ none ↔ p.numSources = 0 ∨ p.aperture < 0x1000 + 4 * p.numSources ∨ 8 < p.levelBits := by
  rw [Ne, rejectionOf_none_iff]
  omega

/-! ### What `RESET` answers -/

theorem exec_reset_of_accepted {p : ResetParams} (s : State) (accepted : rejectionOf p = none) :
    exec (.reset p) s = .next (s.construct p) :=
  (execReset_next_iff p s _).2 ⟨accepted, rfl⟩

theorem exec_reset_of_rejected {p : ResetParams} {e : ConfigError} (s : State) (rejected : rejectionOf p = some e) :
    exec (.reset p) s = .fault (.configError e) := by
  change execReset p s = _
  rw [execReset, rejected]

theorem exec_reset_faults_iff (p : ResetParams) (s : State) :
    (∃ f, exec (.reset p) s = .fault f) ↔ rejectionOf p ≠ none := by
  cases decision : rejectionOf p with
  | none => simp [exec_reset_of_accepted s decision]
  | some e => simp [exec_reset_of_rejected s decision]

/-- Settles O45: operands within the three bounds are accepted, and the new controller is the one `State.construct` describes. -/
theorem resetCreatesAZeroedController : Obligations.ResetCreatesAZeroedController := by
  intro s p sources aperture levels
  have accepted : rejectionOf p = none := (rejectionOf_none_iff p).2 ⟨sources, aperture, levels⟩
  have zeroed (i : Nat) (_ : i < p.numSources) : (s.construct p).ip i = false ∧ (s.construct p).ie i = false
      ∧ (s.construct p).attr i = 0 ∧ (s.construct p).ctl i = 0 ∧ (s.construct p).line i = false :=
    ⟨s.ip_construct p i, s.ie_construct p i, s.attr_construct p i, s.ctl_construct p i, s.line_construct p i⟩
  exact ⟨s.construct p, exec_reset_of_accepted s accepted,
    s.construct_base p, s.construct_aperture p, s.numSources_construct p, s.construct_levelBits p, s.construct_cpu p,
    s.construct_gc p, s.construct_mth p, zeroed,
    s.pendingList_construct p, s.winner_construct p, s.construct_out p, s.construct_reply p,
    srcValid_construct s p sources, s.construct_trig p, s.construct_inputs p, s.construct_draws p⟩

/-- Settles O47: `RESET` faults for the first of the three bounds its operands break, and only if they break one. -/
theorem resetRejectsInvalidConstruction : Obligations.ResetRejectsInvalidConstruction := by
  intro s p
  refine ⟨fun noSources => ?_, fun sources tooSmall => ?_, fun sources aperture tooMany => ?_, ?_⟩
  · exact exec_reset_of_rejected s (rejectionOf_of_noSources noSources)
  · exact exec_reset_of_rejected s (rejectionOf_of_apertureTooSmall sources tooSmall)
  · exact exec_reset_of_rejected s (rejectionOf_of_tooManyLevelBits sources aperture tooMany)
  · exact (exec_reset_faults_iff p s).trans (rejectionOf_ne_none_iff p)

/-- Settles O55: the reset state is a controller constructed from operands that `RESET` accepts. -/
theorem invariantHoldsAtReset : Obligations.InvariantHoldsAtReset := by
  have accepted : rejectionOf resetOperands = none := by decide
  rw [Obligations.InvariantHoldsAtReset, State.reset_eq_construct]
  exact inv_construct State.reset resetOperands accepted

end Sys2Proof.Machine
end

-- ==== Proofs: a wider level field never gives a higher level (40_attribute_decoder section 5) ====
section
/-! A wider field leaves fewer ones below it, so it can only lose bits of the byte: the wider field's bits are among the narrower one's. -/

namespace Sys2Proof

theorem leftJustify_or_narrower (c : Byte) {narrow wide : Nat} (widths : narrow ≤ wide) :
    leftJustify c wide ||| leftJustify c narrow = leftJustify c narrow := by
  refine BitVec.eq_of_getLsbD_eq fun k _ => ?_
  rw [BitVec.getLsbD_or, getLsbD_leftJustify, getLsbD_leftJustify]
  by_cases belowNarrow : k < 8 - narrow
  · rw [if_pos belowNarrow, Bool.or_true]
  · have notBelowWide : ¬ k < 8 - wide := by omega
    rw [if_neg belowNarrow, if_neg notBelowWide, Bool.or_self]

theorem leftJustify_antitone (c : Byte) {narrow wide : Nat} (widths : narrow ≤ wide) :
    leftJustify c wide ≤ leftJustify c narrow := by
  rw [← leftJustify_or_narrower c widths, BitVec.le_def, BitVec.toNat_or]
  exact Nat.left_le_or

end Sys2Proof

namespace Sys2Proof.Machine

/-- Settles O33: both levels justify the same ctl byte, and left-justification is antitone in the width of the field. -/
theorem raisingNlbitsNeverRaisesALevel : Obligations.RaisingNlbitsNeverRaisesALevel := by
  intro s b i _ raised
  rw [State.level_eq_leftJustify, State.level_eq_leftJustify]
  exact leftJustify_antitone (s.ctl i) raised

end Sys2Proof.Machine
end
